-- ==== Sys2Proof/Word.lean ====
section
/-! DEFINITION. The word types of the block: the byte of the wire and of the reassembly buffer (20_memory.md R50), and
the 16-bit number that carries a command word, `rs_len` and `rs_pos` (30_encoding.md R76, 10_state.md R22, R25). All
values are unsigned, bit 0 is the least significant (00_scope.md R9). -/

namespace Sys2Proof

/-- One byte of the wire, of a payload or of the reassembly buffer (20_memory.md R50). -/
abbrev Byte := BitVec 8

/-- A 16-bit unsigned number: a command word, `rs_len`, `rs_pos` or `msg_in.len`. -/
abbrev Half := BitVec 16

/-- A payload is a list of exactly its own length of bytes, in index order (30_encoding.md R70). -/
abbrev Payload := List Byte

end Sys2Proof
end

