-- ==== Sys2Proof/Config.lean ====
section
/-! DEFINITION. What one implementation of the block fixes: the static parameters of 00_scope.md R7, the reference
configuration REF, and the one free value of the model. No number of R7 is the source's: every statement about the
machine is for every configuration (log 3). -/

namespace Sys2Proof

/-- The two roles a transition can enter and a start parameter can name: `Transmit` or `Receive`
(43_scheduler.md R151, R160; 00_scope.md R7). -/
inductive ActiveRole where
  | transmit
  | receive
  deriving DecidableEq, Repr

/-- The static parameters of 00_scope.md R7; none changes after reset. Their legal ranges are `Config.legal`. -/
structure Config where
  /-- `MAX_PAYLOAD`, 1 to 65535. -/
  maxPayload : Nat
  /-- `QUEUE_CAP`, 1 or more; one value for both queues. -/
  queueCap : Nat
  /-- `SENSE_TICKS`, 1 or more. -/
  senseTicks : Nat
  /-- `PHASE_TICKS`, 1 or more; one value for both roles. -/
  phaseTicks : Nat
  /-- `STARTUP_TICKS`, 1 or more. -/
  startupTicks : Nat
  /-- `DEFAULT_ROLE`, entered when the startup window ends. -/
  defaultRole : ActiveRole
  /-- `MANUAL_START_ROLE`, entered by a manual trigger in role `Idle`. -/
  manualStartRole : ActiveRole
  /-- `TICK_PERIOD` in microseconds: timing only, no command reads it; two nodes of one system must agree on it
  (00_scope.md R8(b)). -/
  tickPeriodMicros : Nat
  deriving DecidableEq, Repr

/-- `RX_BUF_CAP = MAX_PAYLOAD` (00_scope.md R7). -/
def Config.rxBufCap (c : Config) : Nat := c.maxPayload

/-- `FRAME_BUF_CAP = MAX_PAYLOAD + 3` (00_scope.md R7). -/
def Config.frameBufCap (c : Config) : Nat := c.maxPayload + 3

/-- The reference configuration `REF` of 00_scope.md R7, the spec's own choice. DESIGN CHOICE (log 3): it is only what
`State.reset` starts from. -/
def Config.ref : Config where
  maxPayload := 8
  queueCap := 2
  senseTicks := 5
  phaseTicks := 20
  startupTicks := 10
  defaultRole := .receive
  manualStartRole := .transmit
  tickPeriodMicros := 1000

/-- FREE VALUE. What the byte of `rs_buf` at an address reads as while nothing has been written to it since the
`epoch`-th reset: "unspecified (any bytes)" (10_state.md R24, R42). No body: nothing can be proved of a value of it
(log 4). -/
opaque Config.freeByte (epoch addr : Nat) : Byte

end Sys2Proof
end

