-- ==== Sys2Proof/Machine/State.lean ====
section
/-! DEFINITION. The state of one node as plain data (10_state.md R20 to R35), the inputs and outputs of a step
(00_scope.md R13, 30_encoding.md R76 to R85), the reasons a step can stop, and the state right after reset
(10_state.md R42). -/

namespace Sys2Proof.Machine

/-- `rs_phase`: which byte of a frame the next admitted byte is (10_state.md R21). -/
inductive RsPhase where
  | awaitLengthHigh
  | awaitLengthLow
  | awaitChecksum
  | awaitPayload
  deriving DecidableEq, Repr

/-- `role` (10_state.md R28). -/
inductive Role where
  | idle
  | transmit
  | receive
  deriving DecidableEq, Repr

/-- `gate` (10_state.md R32): `gSense` means a `try_send` is inside its sense window. -/
inductive Gate where
  | gIdle
  | gSense
  deriving DecidableEq, Repr

/-- Why a transition happens (43_scheduler.md R151). -/
inductive Cause where
  | startup
  | periodicTimeout
  | manualOverride
  | collision
  deriving DecidableEq, Repr

/-- The event kinds of 30_encoding.md R84; their codes are `Event.code`. -/
inductive Event where
  /-- `EV_TX_SUCCESS` -/
  | txSuccess
  /-- `EV_COLLISION` -/
  | collision
  /-- `EV_CHECKSUM_ERROR` -/
  | checksumError
  /-- `EV_PHASE_TX` -/
  | phaseTx
  /-- `EV_PHASE_RX` -/
  | phaseRx
  /-- `EV_QUEUE_FULL_OUT` -/
  | queueFullOut
  /-- `EV_QUEUE_FULL_IN` -/
  | queueFullIn
  /-- `EV_OVERSIZE_PAYLOAD` -/
  | oversizePayload
  /-- `EV_ILLEGAL_COMMAND` -/
  | illegalCommand
  deriving DecidableEq, Repr

/-- An item of `in_q`: a validated payload or the checksum-error token (10_state.md R35). -/
inductive InItem where
  | payload (p : Payload)
  | errChecksum
  deriving DecidableEq, Repr

/-- The result of `feed_byte` (41_reassembler.md R110). -/
inductive FeedResult where
  | incomplete
  | frameReady (p : Payload)
  | checksumError
  deriving DecidableEq, Repr

/-- The reassembly buffer: (address, byte) cells, addresses strictly rising, an address that is not listed holds no
value (10_state.md R24; log 4). -/
abbrev Memory := List Host.Cell

/-- The message input port `msg_in = (len, data)` (30_encoding.md R80). `data` is the port's array of `MAX_PAYLOAD`
bytes written without its trailing zero bytes (log 6). -/
structure MsgIn where
  len : Half
  data : List Byte
  deriving DecidableEq, Repr

/-- What the environment presents to the node in one step: the reset input (30_encoding.md R85), the command word (R76)
and the message input port (R80). -/
structure PortInput where
  rst : Bool
  cmd : Half
  msgIn : MsgIn
  deriving DecidableEq, Repr

/-- The outputs of one step (00_scope.md R13). -/
structure StepOut where
  ack : Bool
  events : List Event
  wireOut : List Byte
  msgOut : Option InItem
  deriving DecidableEq, Repr

/-- The default outputs (00_scope.md R13). -/
def StepOut.quiet : StepOut := { ack := true, events := [], wireOut := [], msgOut := none }

/-- One node. The first thirteen fields are the spec's state, "exactly the following state and no other" (10_state.md
R20); the last five are the model's own (INVENTORY.md). -/
structure State where
  /-- `rs_phase`, R21. -/
  rsPhase : RsPhase
  /-- `rs_len`, R22. -/
  rsLen : Half
  /-- `rs_cks`, R23. -/
  rsCks : Byte
  /-- `rs_buf`, R24. -/
  rsBuf : Memory
  /-- `rs_pos`, R25. -/
  rsPos : Half
  /-- `occ`, R27. -/
  occ : Bool
  /-- `role`, R28. -/
  role : Role
  /-- `phase_cnt`, R30. -/
  phaseCnt : Nat
  /-- `startup_cnt`, R31. -/
  startupCnt : Nat
  /-- `gate`, R32. -/
  gate : Gate
  /-- `sense_cnt`, R33. -/
  senseCnt : Nat
  /-- `out_q`, R34, oldest first. -/
  outQ : List Payload
  /-- `in_q`, R35, oldest first. -/
  inQ : List InItem
  /-- The node's static parameters (00_scope.md R7); no step writes them (log 3). -/
  cfg : Config
  /-- The inputs the environment will present, next first (log 1). -/
  pending : List PortInput
  /-- The message input port in the step that runs (30_encoding.md R80; log 1). -/
  msgIn : MsgIn
  /-- The outputs of the step that ran last (00_scope.md R13; log 2). -/
  out : StepOut
  /-- How many resets there have been: selects the free value that an unwritten byte of `rs_buf` reads as (log 5). -/
  bufEpoch : Nat
  deriving DecidableEq, Repr

/-- Why a step stops with a fault. The spec has no fault (60_exceptions.md R200); this one stands for a precondition of
the spec that only states no run reaches can break. -/
inductive Fault where
  /-- Raised by TICK when a sense window ends with an empty `out_q`: `pop_out` has the "Precondition `out_q` not empty"
  (44_queues.md R173) and the spec gives it no effect otherwise. Safe: the machine stops where the spec says nothing;
  no state with the invariant of 10_state.md R32 gets there (log 7). -/
  | popEmpty
  deriving DecidableEq, Repr

/-- Why a step is refused. -/
inductive Refusal where
  /-- Raised by an arm of `exec` whose instruction has no meaning yet; no arm of this model does. Safe. -/
  | notModelled (mnemonic : String)
  /-- Raised by TICK when a sense window would send a payload longer than `MAX_PAYLOAD`: "`encode` of a longer payload
  is not defined by this spec and never occurs" (40_framer.md R102, 93_implementation_defined.md U10 `refuse`). Safe:
  no state with the invariant of 10_state.md R40(e) gets there (log 9). -/
  | encodeOversize
  deriving DecidableEq, Repr

/-- The state after reset of a node with configuration `c`, the table of 10_state.md R42. -/
def State.resetOf (c : Config) : State where
  rsPhase := .awaitLengthHigh
  rsLen := 0#16
  rsCks := 0#8
  rsBuf := []
  rsPos := 0#16
  occ := false
  role := .idle
  phaseCnt := 0
  startupCnt := 0
  gate := .gIdle
  senseCnt := 0
  outQ := []
  inQ := []
  cfg := c
  pending := []
  msgIn := { len := 0#16, data := [] }
  out := StepOut.quiet
  bufEpoch := 0

/-- The machine right after reset (10_state.md R42), under the reference configuration (00_scope.md R7; log 3). -/
def State.reset : State := State.resetOf Config.ref

end Sys2Proof.Machine
end

