-- ==== Sys2Proof/Machine/Flags.lean ====
section
/-! DEFINITION. Codes and one-bit conditions: the numeric encodings of the enumerated state (30_encoding.md R87), the
event codes (R84), the status outputs (R82) and the worker enables (10_state.md R29). -/

namespace Sys2Proof.Machine

/-- The 2-bit encoding of `rs_phase` (30_encoding.md R87). -/
def RsPhase.code : RsPhase → BitVec 2
  | .awaitLengthHigh => 0#2
  | .awaitLengthLow => 1#2
  | .awaitChecksum => 2#2
  | .awaitPayload => 3#2

/-- The 2-bit encoding of `role`; the value 3 is never taken (30_encoding.md R87). -/
def Role.code : Role → BitVec 2
  | .idle => 0#2
  | .transmit => 1#2
  | .receive => 2#2

/-- The encoding of `gate` (30_encoding.md R87). -/
def Gate.code : Gate → BitVec 1
  | .gIdle => 0#1
  | .gSense => 1#1

/-- The 8-bit code of an event (30_encoding.md R84). -/
def Event.code : Event → Byte
  | .txSuccess => 0x01#8
  | .collision => 0x02#8
  | .checksumError => 0x03#8
  | .phaseTx => 0x04#8
  | .phaseRx => 0x05#8
  | .queueFullOut => 0x06#8
  | .queueFullIn => 0x07#8
  | .oversizePayload => 0x08#8
  | .illegalCommand => 0x09#8

/-- The `events` output as the list of 8-bit codes it is on the port (30_encoding.md R84). -/
def StepOut.eventCodes (o : StepOut) : List Byte := o.events.map Event.code

/-- Status output `st_role[1:0]` (30_encoding.md R82). -/
def State.stRole (s : State) : BitVec 2 := s.role.code

/-- Status output `st_occ` (30_encoding.md R82). -/
def State.stOcc (s : State) : BitVec 1 := BitVec.ofBool s.occ

/-- `tx_en = (role = Transmit)` (10_state.md R29). -/
def State.txEn (s : State) : Bool := decide (s.role = .transmit)

/-- `rx_en = (role = Receive)` (10_state.md R29). -/
def State.rxEn (s : State) : Bool := decide (s.role = .receive)

/-- `role` after a transition that enters `r` (43_scheduler.md R151). -/
def roleOf : ActiveRole → Role
  | .transmit => .transmit
  | .receive => .receive

/-- `other` (43_scheduler.md R161). -/
def otherRole : ActiveRole → ActiveRole
  | .transmit => .receive
  | .receive => .transmit

/-- The phase-change event of a transition that enters `r` (43_scheduler.md R153). -/
def phaseEvent : ActiveRole → Event
  | .transmit => .phaseTx
  | .receive => .phaseRx

end Sys2Proof.Machine
end

