-- ==== Sys2Proof/Machine/Operands.lean ====
section
/-! DEFINITION. The operand forms of the block: the halves of a 16-bit length (20_memory.md R51, 30_encoding.md R71),
the payload offered on the message input port (R80), and the port form of an inbound item (R81). -/

namespace Sys2Proof.Machine

/-- `v[15:8]` (30_encoding.md R71). -/
def hiByte (v : Half) : Byte := v.extractLsb' 8 8

/-- `v[7:0]` (30_encoding.md R71). -/
def loByte (v : Half) : Byte := v.extractLsb' 0 8

/-- `hi : lo` (30_encoding.md R71). -/
def joinBytes (hi lo : Byte) : Half := hi ++ lo

/-- `msg_in.data[i]`: a byte past the end of the list is one of the trailing zero bytes the list leaves out (log 6). -/
def MsgIn.byte (m : MsgIn) (i : Nat) : Byte := m.data.getD i 0#8

/-- `msg_in.data[0 .. len-1]` (30_encoding.md R80): bytes at index `len` and above are ignored. -/
def MsgIn.offered (m : MsgIn) : Payload := (List.range m.len.toNat).map m.byte

/-- The message port of a script line that offers the payload `p`: `msg_in = (len(p), p)` (30_encoding.md R88). DESIGN
CHOICE (log 18): no 16-bit `msg_in.len` holds `len(p)` where it exceeds 65535, the spec says nothing of such a line, and
here the length is cut to its low 16 bits. -/
def MsgIn.ofPayload (p : Payload) : MsgIn := { len := BitVec.ofNat 16 p.length, data := p }

/-- `tag` of an inbound item: 0 for `Payload`, 1 for `ErrChecksum` (30_encoding.md R81). -/
def InItem.tag : InItem → BitVec 1
  | .payload _ => 0#1
  | .errChecksum => 1#1

/-- `data` of an inbound item, indices 0 to `len - 1` (30_encoding.md R81; log 15). -/
def InItem.data : InItem → Payload
  | .payload p => p
  | .errChecksum => []

/-- `len` of an inbound item: the payload length, 0 for `ErrChecksum` (30_encoding.md R81). -/
def InItem.len (x : InItem) : Half := BitVec.ofNat 16 x.data.length

/-- `valid` of the message output port: 0 when `msg_out = none` (30_encoding.md R81). -/
def StepOut.msgValid (o : StepOut) : BitVec 1 := if o.msgOut.isSome then 1#1 else 0#1

/-- A port input that presents a command word, with a given message port. -/
def PortInput.word (w : Half) (m : MsgIn) : PortInput := { rst := false, cmd := w, msgIn := m }

end Sys2Proof.Machine
end

