-- ==== Sys2Proof/Machine/Ops.lean ====
section
/-! DEFINITION. The shared operations over the state: the plain writes, the reassembly buffer, the occupancy flag
(42_occupancy_gate.md R130, R131), the queues (44_queues.md R172, R173), the transition (43_scheduler.md R151), which
stands for taking an exception (60_exceptions.md R211), and reset (70_reset_and_hazards.md R230). There is no return
from a transition (R212), so no operation stands beside it. -/

namespace Sys2Proof.Machine

/-! ## The outputs of a step (00_scope.md R12, R13) -/

/-- Every step starts from the default outputs: "A rule that does not mention an output leaves it at its default"
(00_scope.md R13). -/
def State.beginStep (s : State) : State := { s with out := StepOut.quiet }

/-- `emit E`: appends `E` to `events`; it never abandons the step (00_scope.md R12). -/
def State.emit (e : Event) (s : State) : State := { s with out := { s.out with events := s.out.events ++ [e] } }

/-- `ack = 0` (00_scope.md R13). -/
def State.nack (s : State) : State := { s with out := { s.out with ack := false } }

/-- `wire_out = bs` (30_encoding.md R83). -/
def State.putWire (bs : List Byte) (s : State) : State := { s with out := { s.out with wireOut := bs } }

/-- `msg_out = x` (30_encoding.md R81). -/
def State.putMsg (x : InItem) (s : State) : State := { s with out := { s.out with msgOut := some x } }

/-! ## Plain writes of state elements -/

/-- Writes the frame cursor (10_state.md R36). -/
def State.setCursor (ph : RsPhase) (pos : Half) (s : State) : State := { s with rsPhase := ph, rsPos := pos }

/-- Writes `rs_len`. -/
def State.setLen (v : Half) (s : State) : State := { s with rsLen := v }

/-- Writes `rs_cks`. -/
def State.setCks (v : Byte) (s : State) : State := { s with rsCks := v }

/-- Writes `occ`. -/
def State.setOcc (v : Bool) (s : State) : State := { s with occ := v }

/-- Writes `gate` and `sense_cnt`: a window begins, ends or is cancelled with its count at a stated value (10_state.md
R32, R33). -/
def State.setGate (g : Gate) (n : Nat) (s : State) : State := { s with gate := g, senseCnt := n }

/-- Writes `phase_cnt`. -/
def State.setPhaseCnt (n : Nat) (s : State) : State := { s with phaseCnt := n }

/-- Writes `startup_cnt`. -/
def State.setStartupCnt (n : Nat) (s : State) : State := { s with startupCnt := n }

/-- Writes `role` and zeroes both scheduler counters: the periodic timer "starts a full period now"
(43_scheduler.md R151, R159). -/
def State.enterRole (r : ActiveRole) (s : State) : State :=
  { s with role := roleOf r, phaseCnt := 0, startupCnt := 0 }

/-- Writes `out_q`. -/
def State.setOutQ (q : List Payload) (s : State) : State := { s with outQ := q }

/-- Writes `in_q`. -/
def State.setInQ (q : List InItem) (s : State) : State := { s with inQ := q }

/-! ## The reassembly buffer (00_scope.md R11, 10_state.md R24) -/

/-- What an address that is not listed reads as: no value, "unspecified (any bytes)" (10_state.md R24; log 4). -/
def Memory.unlisted : Option Byte := none

/-- The byte listed at an address, if any. -/
def Memory.read : Memory → Nat → Option Byte
  | [], _ => Memory.unlisted
  | (a, b) :: m, x => if a = x then some b else Memory.read m x

/-- Writes one byte, keeping the addresses strictly rising. -/
def Memory.write : Memory → Nat → Byte → Memory
  | [], x, v => [(x, v)]
  | (a, b) :: m, x, v =>
    if x < a then (x, v) :: (a, b) :: m else if a = x then (x, v) :: m else (a, b) :: Memory.write m x v

/-- The addresses are strictly rising. -/
def Memory.rising : Memory → Bool
  | [] => true
  | [_] => true
  | (a, _) :: (b, v) :: m => decide (a < b) && Memory.rising ((b, v) :: m)

/-- The canonical form: addresses strictly rising, and no cell holds what an unlisted address reads as. -/
def Memory.wf (m : Memory) : Bool := Memory.rising m && m.all (fun c => decide (some c.2 ≠ Memory.unlisted))

/-- `MemRead(addr, 1)` (00_scope.md R11): a byte that nothing has written since the last reset reads as a free value
(log 4). No rule uses an address outside 0 to `RX_BUF_CAP - 1`. -/
def bufRead (s : State) (a : Nat) : Byte := (Memory.read s.rsBuf a).getD (Config.freeByte s.bufEpoch a)

/-- `MemWrite(addr, 1, v)` (00_scope.md R11). -/
def bufWrite (a : Nat) (v : Byte) (s : State) : State := { s with rsBuf := Memory.write s.rsBuf a v }

/-- `rs_buf[0 .. k-1]`, copied (41_reassembler.md R117). -/
def bufPrefix (s : State) (k : Nat) : Payload := (List.range k).map (bufRead s)

/-! ## The occupancy flag -/

/-- `mark_occupied()` (42_occupancy_gate.md R130). -/
def markOccupied (s : State) : State := s.setOcc true

/-- `take_and_clear()`: the flag as it was, and the state with the flag cleared (42_occupancy_gate.md R131). -/
def takeAndClear (s : State) : Bool × State := (s.occ, s.setOcc false)

/-! ## The queues -/

/-- `push_in(item)` (44_queues.md R172): a full queue drops the new item and reports it. -/
def pushIn (x : InItem) (s : State) : State :=
  if s.inQ.length = s.cfg.queueCap then s.emit .queueFullIn else s.setInQ (s.inQ ++ [x])

/-- `pop_out()` (44_queues.md R173); `none` where its precondition fails. -/
def popOut (s : State) : Option (Payload × State) :=
  match s.outQ with
  | [] => none
  | p :: q => some (p, s.setOutQ q)

/-- `pop_out()` with its result discarded (42_occupancy_gate.md R139). On an empty queue, where no run gets, nothing is
removed: a transition "cannot fail" (43_scheduler.md R151; DEDUCED, log 8). -/
def discardHead (s : State) : State :=
  match popOut s with
  | none => s
  | some (_, s') => s'

/-! ## The transition (taking an exception, 60_exceptions.md R211) -/

/-- `reset_reassembly()` (41_reassembler.md R118). -/
def resetReassembly (s : State) : State := s.setCursor .awaitLengthHigh 0#16

/-- `cancel_sense(cause)` (42_occupancy_gate.md R139): the window ends unsent; a collision also loses its message. -/
def cancelSense (cause : Cause) (s : State) : State :=
  if cause = .collision then discardHead (s.setGate .gIdle 0) else s.setGate .gIdle 0

/-- The suspension of the old worker: a transition that finds a window open cancels it (43_scheduler.md R151). -/
def suspendGate (cause : Cause) (s : State) : State :=
  if s.role = .transmit ∧ s.gate = .gSense then cancelSense cause s else s

/-- The events of a transition (43_scheduler.md R153): `EV_COLLISION` first where that is the cause, then the
phase change. -/
def emitTransition (new : ActiveRole) (cause : Cause) (s : State) : State :=
  if cause = .collision then (s.emit .collision).emit (phaseEvent new) else s.emit (phaseEvent new)

/-- `transition(new, cause)` (43_scheduler.md R151), in the order of R152: suspend, reset the reassembly, clear the
occupancy, then enter the role. It saves nothing (60_exceptions.md R211) and cannot fail. -/
def transition (new : ActiveRole) (cause : Cause) (s : State) : State :=
  emitTransition new cause (((resetReassembly (suspendGate cause s)).setOcc false).enterRole new)

/-! ## Reset -/

/-- Reset (70_reset_and_hazards.md R230, 45_control.md R187): every state element at the value of 10_state.md R42, the
default outputs, and `rs_buf` unspecified anew. The parameters and the environment's inputs are no state of the node
and stay. -/
def resetNode (s : State) : State :=
  { State.resetOf s.cfg with pending := s.pending, msgIn := s.msgIn, bufEpoch := s.bufEpoch + 1 }

end Sys2Proof.Machine
end

