-- ==== Sys2Proof/Machine/Control.lean ====
section
/-! DEFINITION. The control commands (45_control.md): `NOP`, illegal words, `SRESET`. -/

namespace Sys2Proof.Machine

/-- `NOP` (45_control.md R185): the default outputs and nothing else; no timer advances. -/
def execNop (s : State) : Host.Outcome State Fault Refusal := .next s.beginStep

/-- An illegal command word (45_control.md R186): one event, `ack = 0`, no state; the block is not stopped. -/
def illegalCommand (s : State) : State := (s.beginStep.emit .illegalCommand).nack

/-- `SRESET` (45_control.md R187): the same operation as a step with `rst = 1` (70_reset_and_hazards.md R230). -/
def execSreset (s : State) : Host.Outcome State Fault Refusal := .next (resetNode s)

end Sys2Proof.Machine
end

