-- ==== Sys2Proof/Machine/Framer.lean ====
section
/-! DEFINITION. The Framer (40_framer.md): the checksum and the length-prefixed frame, pure functions with no state. -/

namespace Sys2Proof.Machine

/-- `cks(p)`: the sum of the bytes as unsigned numbers, mod 256 (40_framer.md R101). -/
def cks (p : Payload) : Byte := BitVec.ofNat 8 (p.map BitVec.toNat).sum

/-- `encode(p)` for `len(p) <= 65535`: two length bytes, high first, the checksum, then the payload
(40_framer.md R100, 30_encoding.md R70). A node uses it only through `frameOf`, which checks the length. The script
line `RXFRAME p`, which knows no `MAX_PAYLOAD`, uses it as it stands: for `len(p) > MAX_PAYLOAD`, where the spec does not
define `encode` (R102), that is this layout, and for `len(p) > 65535` with the length cut to its low 16 bits. DESIGN
CHOICE (log 18; 93_implementation_defined.md U10 allows a total `encode` on which no rule depends). -/
def encodeFrame (p : Payload) : List Byte :=
  [hiByte (BitVec.ofNat 16 p.length), loByte (BitVec.ofNat 16 p.length), cks p] ++ p

/-- `encode(p)`, with its operand range: `none` where the spec does not define it (40_framer.md R100, R102; log 9). -/
def frameOf (c : Config) (p : Payload) : Option (List Byte) :=
  if p.length ≤ c.maxPayload then some (encodeFrame p) else none

end Sys2Proof.Machine
end

