-- ==== Sys2Proof/Machine/Gate.lean ====
section
/-! DEFINITION. The Carrier-Sense Transmit Gate (42_occupancy_gate.md): `TRY_SEND`, the sense-window part of `TICK`
and the end of the window. -/

namespace Sys2Proof.Machine

/-- The end of a sense window that found the channel clear: the whole frame, in this step (42_occupancy_gate.md R138,
R140). -/
def sendFrame (p : Payload) (s : State) : Host.Outcome State Fault Refusal :=
  match frameOf s.cfg p with
  | none => .refused .encodeOversize
  | some bs => .next ((s.putWire bs).emit .txSuccess)

/-- `resolve()` (42_occupancy_gate.md R138): the message leaves the queue and the gate is idle whatever the flag says;
`occ` is read and not changed. The collision branch is kept although no run reaches it (R143). -/
def resolve (s : State) : Host.Outcome State Fault Refusal :=
  match popOut s with
  | none => .fault .popEmpty
  | some (p, s') =>
    if s.occ then .next ((s'.setGate .gIdle 0).emit .collision) else sendFrame p (s'.setGate .gIdle 0)

/-- The sense-window part of `TICK` (42_occupancy_gate.md R137). -/
def senseTick (s : State) : Host.Outcome State Fault Refusal :=
  if s.senseCnt + 1 = s.cfg.senseTicks then resolve s else .next (s.setGate s.gate (s.senseCnt + 1))

/-- When `TRY_SEND` is enabled (42_occupancy_gate.md R134). -/
def trySendEnabled (s : State) : Bool :=
  decide (s.role = .transmit) && decide (s.gate = .gIdle) && !s.outQ.isEmpty

/-- `TRY_SEND` (42_occupancy_gate.md R134): clears the flag, discarding what it was, and opens a window; not enabled,
it only answers `ack = 0` (R135). -/
def execTrySend (s : State) : Host.Outcome State Fault Refusal :=
  if trySendEnabled s then .next ((takeAndClear s.beginStep).2.setGate .gSense 0) else .next s.beginStep.nack

end Sys2Proof.Machine
end

