-- ==== Sys2Proof/Machine/Queues.lean ====
section
/-! DEFINITION. The Hand-off Queues (44_queues.md): `ENQ_OUT` and `DEQ_IN`. -/

namespace Sys2Proof.Machine

/-- `ENQ_OUT` (44_queues.md R174): the size check first, then the queue; enabled in every role. -/
def execEnqOut (s : State) : Host.Outcome State Fault Refusal :=
  if s.cfg.maxPayload < s.msgIn.len.toNat then .next (s.beginStep.emit .oversizePayload).nack
  else if s.outQ.length = s.cfg.queueCap then .next (s.beginStep.emit .queueFullOut).nack
  else .next (s.beginStep.setOutQ (s.outQ ++ [s.msgIn.offered]))

/-- The hand-over of one inbound item to the application (44_queues.md R175): a checksum-error token is reported here,
in worker context. -/
def reportItem (x : InItem) (s : State) : State :=
  match x with
  | .payload _ => s.putMsg x
  | .errChecksum => (s.putMsg x).emit .checksumError

/-- `DEQ_IN` in role `Receive` (44_queues.md R175). -/
def takeInbound (s : State) : State :=
  match s.inQ with
  | [] => s.nack
  | x :: q => reportItem x (s.setInQ q)

/-- `DEQ_IN` (44_queues.md R175): outside role `Receive` the receive worker is suspended and nothing happens. -/
def execDeqIn (s : State) : Host.Outcome State Fault Refusal :=
  if s.role = .receive then .next (takeInbound s.beginStep) else .next s.beginStep.nack

end Sys2Proof.Machine
end

