-- ==== Sys2Proof/Machine/Reassembler.lean ====
section
/-! DEFINITION. The Frame Reassembler and the command `RX_BYTE` (41_reassembler.md). -/

namespace Sys2Proof.Machine

/-- How many payload bytes of the announced frame were stored: `min(rs_len, RX_BUF_CAP)` (41_reassembler.md R117). -/
def storedLen (s : State) : Nat := min s.rsLen.toNat s.cfg.rxBufCap

/-- `complete()` (41_reassembler.md R117): the checksum of the bytes in the buffer against `rs_cks`; the cursor goes
back to the start of a frame either way; `rs_len`, `rs_cks`, `rs_buf` keep their values. -/
def complete (s : State) : FeedResult × State :=
  let p := bufPrefix s (storedLen s)
  let s' := s.setCursor .awaitLengthHigh 0#16
  if cks p = s.rsCks then (.frameReady p, s') else (.checksumError, s')

/-- State `AwaitLengthHigh` (41_reassembler.md R111): the byte goes to `rs_len[15:8]`, zero to the low half. -/
def feedLengthHigh (b : Byte) (s : State) : FeedResult × State :=
  (.incomplete, (s.setLen (joinBytes b 0#8)).setCursor .awaitLengthLow s.rsPos)

/-- State `AwaitLengthLow` (41_reassembler.md R112). -/
def feedLengthLow (b : Byte) (s : State) : FeedResult × State :=
  (.incomplete, (s.setLen (joinBytes (hiByte s.rsLen) b)).setCursor .awaitChecksum s.rsPos)

/-- State `AwaitChecksum` (41_reassembler.md R113): a zero-length frame completes at once (R114). -/
def feedChecksum (b : Byte) (s : State) : FeedResult × State :=
  if s.rsLen = 0#16 then complete ((s.setCks b).setCursor s.rsPhase 0#16)
  else (.incomplete, (s.setCks b).setCursor .awaitPayload 0#16)

/-- The store of state `AwaitPayload` (41_reassembler.md R115): a byte past the buffer is dropped, not signalled. -/
def storePayloadByte (b : Byte) (s : State) : State :=
  if s.rsPos.toNat < s.cfg.rxBufCap then bufWrite s.rsPos.toNat b s else s

/-- The advance of state `AwaitPayload` (41_reassembler.md R116): every payload byte counts, stored or dropped. The
16-bit increment cannot wrap in a state that a run reaches (10_state.md R26; log 10). -/
def advancePayload (s : State) : FeedResult × State :=
  let s' := s.setCursor s.rsPhase (s.rsPos + 1#16)
  if s'.rsPos = s'.rsLen then complete s' else (.incomplete, s')

/-- State `AwaitPayload`: the store, then the advance (41_reassembler.md R115, R116). -/
def feedPayload (b : Byte) (s : State) : FeedResult × State := advancePayload (storePayloadByte b s)

/-- `feed_byte(b)` (41_reassembler.md R110): total, one rule for each value of `rs_phase`. -/
def feedByte (b : Byte) (s : State) : FeedResult × State :=
  match s.rsPhase with
  | .awaitLengthHigh => feedLengthHigh b s
  | .awaitLengthLow => feedLengthLow b s
  | .awaitChecksum => feedChecksum b s
  | .awaitPayload => feedPayload b s

/-- A result that is not `Incomplete`, as a list of none or one (41_reassembler.md R119). -/
def reportable : FeedResult → List FeedResult
  | .incomplete => []
  | .frameReady p => [.frameReady p]
  | .checksumError => [.checksumError]

/-- `feed_block(bs)` (41_reassembler.md R119): `feed_byte` on each byte in order; the results that are not
`Incomplete`, in order, and the state it leaves. -/
def feedBlock : List Byte → State → List FeedResult × State
  | [], s => ([], s)
  | b :: bs, s =>
    let r := feedByte b s
    let rest := feedBlock bs r.2
    (reportable r.1 ++ rest.1, rest.2)

/-- `deframe(bs)` (41_reassembler.md R119): `feed_block` from the start of a frame, `Ok(p)` when the list of results is
exactly `[FrameReady(p)]`. -/
def deframe (bs : List Byte) (s : State) : Option Payload :=
  match (feedBlock bs (resetReassembly s)).1 with
  | [.frameReady p] => some p
  | _ => none

/-- What becomes of a result (41_reassembler.md R121): a payload or an error token goes to the inbound queue. -/
def handOff (r : FeedResult × State) : State :=
  match r.1 with
  | .incomplete => r.2
  | .frameReady p => pushIn (.payload p) r.2
  | .checksumError => pushIn .errChecksum r.2

/-- `RX_BYTE b` (41_reassembler.md R120 to R123): the mark first, whatever the role; then the byte is admitted in
`Receive`, is a collision in `Transmit`, and is ignored in `Idle`. Enabled in every state. -/
def execRxByte (b : Byte) (s : State) : Host.Outcome State Fault Refusal :=
  match s.role with
  | .receive => .next (handOff (feedByte b (markOccupied s.beginStep)))
  | .transmit => .next (transition .receive .collision (markOccupied s.beginStep))
  | .idle => .next (markOccupied s.beginStep)

end Sys2Proof.Machine
end

