-- ==== Sys2Proof/Machine/Scheduler.lean ====
section
/-! DEFINITION. The Phase Scheduler (43_scheduler.md): `TICK` and `MANUAL`. The counters are compared with their bounds
for equality, as the rules are written (log 17). -/

namespace Sys2Proof.Machine

/-- `TICK` in role `Idle`: the startup window (43_scheduler.md R156). -/
def startupTick (s : State) : State :=
  if s.startupCnt + 1 = s.cfg.startupTicks then transition s.cfg.defaultRole .startup s
  else s.setStartupCnt (s.startupCnt + 1)

/-- The part of `TICK` after the phase timer did not expire: an open sense window of role `Transmit` advances
(43_scheduler.md R155). -/
def gateTick (s : State) : Host.Outcome State Fault Refusal :=
  if s.role = .transmit ∧ s.gate = .gSense then senseTick s else .next s

/-- `TICK` in role `Transmit` or `Receive` (43_scheduler.md R155): the periodic timer first, then the sense window; the
two never both act in one tick (60_exceptions.md R209). `r` is the current role. -/
def phaseTick (r : ActiveRole) (s : State) : Host.Outcome State Fault Refusal :=
  if s.phaseCnt + 1 = s.cfg.phaseTicks then .next (transition (otherRole r) .periodicTimeout s)
  else gateTick (s.setPhaseCnt (s.phaseCnt + 1))

/-- `TICK` (43_scheduler.md R154). -/
def execTick (s : State) : Host.Outcome State Fault Refusal :=
  match s.role with
  | .idle => .next (startupTick s.beginStep)
  | .transmit => phaseTick .transmit s.beginStep
  | .receive => phaseTick .receive s.beginStep

/-- The role a manual trigger enters (43_scheduler.md R157). -/
def manualTarget (s : State) : ActiveRole :=
  match s.role with
  | .idle => s.cfg.manualStartRole
  | .transmit => .receive
  | .receive => .transmit

/-- `MANUAL` (43_scheduler.md R157). -/
def execManual (s : State) : Host.Outcome State Fault Refusal :=
  .next (transition (manualTarget s) .manualOverride s.beginStep)

end Sys2Proof.Machine
end

