-- ==== Sys2Proof/Syntax.lean ====
section
/-! DEFINITION. The commands of the block, one constructor per row of spec/opcode_table.json (30_encoding.md R77). -/

namespace Sys2Proof

/-- The eight commands (30_encoding.md R77). Only `RX_BYTE` has an operand in its word; the operand bits of the others
are ignored, "two words that differ only in `cmd[7:0]` are the same command" (R78). The payload of `ENQ_OUT` comes on
the message input port (R80), which is no part of the word. -/
inductive Instr where
  /-- `NOP`, 45_control.md R185. -/
  | nop
  /-- `RX_BYTE b`, 41_reassembler.md R120: one byte arrives on the shared line. -/
  | rxByte (b : Byte)
  /-- `TICK`, 43_scheduler.md R154: one unit of time passes. -/
  | tick
  /-- `MANUAL`, 43_scheduler.md R157: one debounced external trigger. -/
  | manual
  /-- `ENQ_OUT`, 44_queues.md R174: the application offers the payload on `msg_in`. -/
  | enqOut
  /-- `DEQ_IN`, 44_queues.md R175: the receive worker takes the oldest inbound item. -/
  | deqIn
  /-- `TRY_SEND`, 42_occupancy_gate.md R134: the transmit worker opens a sense window. -/
  | trySend
  /-- `SRESET`, 45_control.md R187: reset. -/
  | sreset
  deriving DecidableEq, Repr

end Sys2Proof
end

