-- ==== Sys2Proof/Machine/Dispatch.lean ====
section
/-! DEFINITION. One arm per command (45_control.md R188). -/

namespace Sys2Proof.Machine

def exec (i : Instr) (s : State) : Host.Outcome State Fault Refusal :=
  match i with
  | .nop => Sys2Proof.Machine.execNop s
  | .rxByte b => Sys2Proof.Machine.execRxByte b s
  | .tick => Sys2Proof.Machine.execTick s
  | .manual => Sys2Proof.Machine.execManual s
  | .enqOut => Sys2Proof.Machine.execEnqOut s
  | .deqIn => Sys2Proof.Machine.execDeqIn s
  | .trySend => Sys2Proof.Machine.execTrySend s
  | .sreset => Sys2Proof.Machine.execSreset s

end Sys2Proof.Machine
end

