-- ==== Sys2Proof/Decode.lean ====
section
/-! DEFINITION. The decoder of the 16-bit command word, total and rejecting by name, and after it the encoder, both
from 30_encoding.md R76 to R79. -/

namespace Sys2Proof

/-- Why a command word is illegal (30_encoding.md R79). The name is not observable: every illegal word has the same
effect (45_control.md R186). A word that is illegal for both reasons is named by its `zero` field
(log 14). -/
inductive IllegalWord where
  /-- `cmd[11:8]` is not 0000, whatever the opcode. -/
  | zeroFieldNotZero
  /-- `cmd[15:12]` is 0x7 to 0xE. -/
  | reservedOpcode
  deriving DecidableEq, Repr

/-- `cmd[15:12]` (30_encoding.md R76). -/
def cmdOpcode (w : Half) : BitVec 4 := w.extractLsb' 12 4

/-- `cmd[11:8]` (30_encoding.md R76). -/
def cmdZero (w : Half) : BitVec 4 := w.extractLsb' 8 4

/-- `cmd[7:0]` (30_encoding.md R76). -/
def cmdOperand (w : Half) : Byte := w.extractLsb' 0 8

/-- The command an opcode selects, given the operand field (the opcode map of 30_encoding.md R77). -/
def decodeOpcode (opcode : BitVec 4) (operand : Byte) : Except IllegalWord Instr :=
  match opcode.toNat with
  | 0x0 => .ok .nop
  | 0x1 => .ok (.rxByte operand)
  | 0x2 => .ok .tick
  | 0x3 => .ok .manual
  | 0x4 => .ok .enqOut
  | 0x5 => .ok .deqIn
  | 0x6 => .ok .trySend
  | 0xF => .ok .sreset
  | _ => .error .reservedOpcode

/-- The command a word stands for, or why it is illegal (30_encoding.md R77, R79; 45_control.md R188: "every 16-bit
word selects exactly one rule"). -/
def decode (w : Half) : Except IllegalWord Instr :=
  if cmdZero w = 0#4 then decodeOpcode (cmdOpcode w) (cmdOperand w) else .error .zeroFieldNotZero

/-- The opcode of a command (30_encoding.md R77). -/
def opcodeOf : Instr → BitVec 4
  | .nop => 0x0#4
  | .rxByte _ => 0x1#4
  | .tick => 0x2#4
  | .manual => 0x3#4
  | .enqOut => 0x4#4
  | .deqIn => 0x5#4
  | .trySend => 0x6#4
  | .sreset => 0xF#4

/-- The operand field of a command; a script writes ignored operand bits as zero (30_encoding.md R78). -/
def operandOf : Instr → Byte
  | .rxByte b => b
  | .nop => 0#8
  | .tick => 0#8
  | .manual => 0#8
  | .enqOut => 0#8
  | .deqIn => 0#8
  | .trySend => 0#8
  | .sreset => 0#8

/-- The word of a command: opcode, 0000, operand (30_encoding.md R76). -/
def encode (i : Instr) : Half := opcodeOf i ++ 0#4 ++ operandOf i

/-- One row of the opcode map, as 30_encoding.md R77 prints it: the word matches when `cmd & mask = match`. -/
structure OpcodeRow where
  mnemonic : String
  pattern : Half
  mask : Half
  deriving DecidableEq, Repr

/-- The opcode map of 30_encoding.md R77 (the reserved opcodes have no row). -/
def opcodeRows : List OpcodeRow :=
  [⟨"NOP", 0x0000#16, 0xFF00#16⟩, ⟨"RX_BYTE", 0x1000#16, 0xFF00#16⟩, ⟨"TICK", 0x2000#16, 0xFF00#16⟩,
   ⟨"MANUAL", 0x3000#16, 0xFF00#16⟩, ⟨"ENQ_OUT", 0x4000#16, 0xFF00#16⟩, ⟨"DEQ_IN", 0x5000#16, 0xFF00#16⟩,
   ⟨"TRY_SEND", 0x6000#16, 0xFF00#16⟩, ⟨"SRESET", 0xF000#16, 0xFF00#16⟩]

/-- A word matches a row when `cmd & mask = match` (30_encoding.md R77). -/
def OpcodeRow.matchesWord (r : OpcodeRow) (w : Half) : Bool := w &&& r.mask == r.pattern

/-- The mnemonic of a command, as spec/opcode_table.json spells it. -/
def mnemonicOf : Instr → String
  | .nop => "NOP"
  | .rxByte _ => "RX_BYTE"
  | .tick => "TICK"
  | .manual => "MANUAL"
  | .enqOut => "ENQ_OUT"
  | .deqIn => "DEQ_IN"
  | .trySend => "TRY_SEND"
  | .sreset => "SRESET"

/-- The instruction the decoder reads from an instruction whose bits are `w`, numbered as the opcode table numbers
them. Every command word is one 16-bit word (30_encoding.md R76) and reaches the block whole, so there is no order of
bytes to lay out; bits at `nbits` and above are zero. -/
def decodeTableWord (nbits w : Nat) : Option Instr :=
  match decode (BitVec.ofNat 16 (w % 2 ^ nbits)) with
  | .ok i => some i
  | .error _ => none

end Sys2Proof
end

