-- ==== Sys2Proof/Machine/Fetch.lean ====
section
/-! DEFINITION. How a command reaches the block: the environment presents one input per step (00_scope.md R6,
30_encoding.md R76, R80, R85), and which rule a step picks (45_control.md R188). The block fetches no instructions
(00_scope.md R1): the inputs it will be given stand in `pending` (log 1). -/

namespace Sys2Proof.Machine

/-- What a step does (45_control.md R188). -/
inductive Selected where
  /-- No command is presented: nothing changes (00_scope.md R6). -/
  | nothing
  /-- `rst = 1`, whatever the command word (30_encoding.md R85). -/
  | reset
  /-- An illegal command word (45_control.md R186). -/
  | illegal (e : IllegalWord)
  /-- A command. -/
  | command (i : Instr)
  deriving DecidableEq, Repr

/-- The rule one input picks (45_control.md R188). -/
def selectInput (inp : PortInput) : Selected :=
  if inp.rst then .reset
  else match decode inp.cmd with
    | .error e => .illegal e
    | .ok i => .command i

/-- The rule the next step picks. -/
def select (s : State) : Selected :=
  match s.pending with
  | [] => .nothing
  | inp :: _ => selectInput inp

/-- The input of this step leaves the environment's list, and its message port is what the step sees. -/
def latch (s : State) : State :=
  match s.pending with
  | [] => s
  | inp :: rest => { s with pending := rest, msgIn := inp.msgIn }

/-- The environment presents an input as the very next one. -/
def State.present (inp : PortInput) (s : State) : State := { s with pending := inp :: s.pending }

/-- The environment presents a command word as the very next one, the message port as it stands. -/
def State.presentWord (w : Half) (s : State) : State := s.present (PortInput.word w s.msgIn)

end Sys2Proof.Machine
end

