-- ==== Sys2Proof/Machine/Step.lean ====
section
/-! DEFINITION. One step of one node (00_scope.md R6, 45_control.md R188). -/

namespace Sys2Proof.Machine

/-- One step: the presented input selects one rule, and that rule is all that happens. -/
def step (s : State) : Host.Outcome State Fault Refusal :=
  match select s with
  | .nothing => .next s
  | .reset => .next (resetNode (latch s))
  | .illegal _ => .next (illegalCommand (latch s))
  | .command i => exec i (latch s)

/-- `s` with the command word `w` presented as the very next one (log 1). Every command word is 16 bits, so bits at
`nbits` and above are zero. -/
def State.withFetchWord (s : State) (nbits w : Nat) : State :=
  s.presentWord (BitVec.ofNat 16 (w % 2 ^ nbits))

end Sys2Proof.Machine
end

