-- ==== Sys2Proof/Machine/Pair.lean ====
section
/-! DEFINITION. Two nodes on one wire (60_exceptions.md R218 to R223). Each node has all its own state and its own
commands; they interact only through the bytes under way between them. Every interleaving is a list of `PairCmd`
(R219). Nothing here adds to one node: `step` is the node's. -/

namespace Sys2Proof.Machine

/-- The two nodes; "More than two nodes are a non-goal" (60_exceptions.md R218). -/
inductive NodeId where
  | a
  | b
  deriving DecidableEq, Repr

/-- Two nodes and the bytes each has on the way to it, oldest first (60_exceptions.md R218, R220). -/
structure Pair where
  a : State
  b : State
  /-- Bytes node B has emitted and node A has not been given yet. -/
  toA : List Byte
  /-- Bytes node A has emitted and node B has not been given yet. -/
  toB : List Byte
  deriving DecidableEq, Repr

/-- What can happen next in a pair (60_exceptions.md R219, R220). -/
inductive PairCmd where
  /-- A node takes one command of its own, or one byte of noise, which is an additional `RX_BYTE` (R220). -/
  | node (n : NodeId) (inp : PortInput)
  /-- The oldest byte under way to a node is delivered to it as one `RX_BYTE`. -/
  | deliver (n : NodeId)
  deriving DecidableEq, Repr

/-- One input presented to a node and the step it makes. -/
def stepInput (inp : PortInput) (s : State) : Host.Outcome State Fault Refusal := step (s.present inp)

/-- `RX_BYTE b` as an input (30_encoding.md R88: `0x1000 + b`). -/
def rxInput (b : Byte) : PortInput := PortInput.word (encode (.rxByte b)) { len := 0#16, data := [] }

/-- A command without a message as an input. -/
def cmdInput (i : Instr) : PortInput := PortInput.word (encode i) { len := 0#16, data := [] }

/-- `ENQ p` as an input (30_encoding.md R88; `len(p) > 65535`: DESIGN CHOICE, log 18). -/
def enqInput (p : Payload) : PortInput := PortInput.word (encode .enqOut) (MsgIn.ofPayload p)

/-- The result of a node's step put back into the pair. -/
def mapNext (f : State → Pair) : Host.Outcome State Fault Refusal → Host.Outcome Pair Fault Refusal
  | .next t => .next (f t)
  | .fault r => .fault r
  | .refused r => .refused r

/-- Node A after a step: what it put on the wire is under way to B; "A node does not receive its own bytes"
(60_exceptions.md R220). -/
def Pair.putA (p : Pair) (t : State) : Pair := { p with a := t, toB := p.toB ++ t.out.wireOut }

/-- Node B after a step (60_exceptions.md R220). -/
def Pair.putB (p : Pair) (t : State) : Pair := { p with b := t, toA := p.toA ++ t.out.wireOut }

/-- One step of the pair (60_exceptions.md R219, R220). With no byte under way a delivery changes nothing (log 12). -/
def pairStep (c : PairCmd) (p : Pair) : Host.Outcome Pair Fault Refusal :=
  match c with
  | .node .a inp => mapNext p.putA (stepInput inp p.a)
  | .node .b inp => mapNext p.putB (stepInput inp p.b)
  | .deliver .a =>
    match p.toA with
    | [] => .next p
    | x :: rest => mapNext { p with toA := rest }.putA (stepInput (rxInput x) p.a)
  | .deliver .b =>
    match p.toB with
    | [] => .next p
    | x :: rest => mapNext { p with toB := rest }.putB (stepInput (rxInput x) p.b)

/-- The steps of a pair in order, up to the first stop. -/
def pairRun : List PairCmd → Pair → Host.Outcome Pair Fault Refusal
  | [], p => .next p
  | c :: cs, p =>
    match pairStep c p with
    | .next q => pairRun cs q
    | .fault r => .fault r
    | .refused r => .refused r

/-- The inputs of their own that the steps of a pair present to a node, in order (deliveries are not among them). -/
def nodeInputs (n : NodeId) : List PairCmd → List PortInput
  | [] => []
  | .node m inp :: cs => if m = n then inp :: nodeInputs n cs else nodeInputs n cs
  | .deliver _ :: cs => nodeInputs n cs

/-- Two nodes right after each one's own reset, nothing under way (60_exceptions.md R218). -/
def Pair.resetOf (ca cb : Config) : Pair := { a := State.resetOf ca, b := State.resetOf cb, toA := [], toB := [] }

end Sys2Proof.Machine
end

