-- ==== Sys2Proof/WellFormed.lean ====
section
/-! DEFINITION. The checks the spec puts on what is not state: the legal range of each parameter (00_scope.md R7, R8),
what two nodes of one system must share (R8(b)), and the operand ranges of a command. -/

namespace Sys2Proof

/-- Every term of `Instr` is well formed: the one operand, the received byte, is "unsigned, 0 to 255, with no
translation" (30_encoding.md R78), which is the whole of its type. One arm per constructor, so that a command with a
narrower operand would have to say its range here. -/
def Instr.wf : Instr → Bool
  | .nop => true
  | .rxByte _ => true
  | .tick => true
  | .manual => true
  | .enqOut => true
  | .deqIn => true
  | .trySend => true
  | .sreset => true

/-- The legal ranges of the table of 00_scope.md R7. `PHASE_TICKS > SENSE_TICKS` is not asked: "The model does not
refuse a configuration that breaks (c); it then never sends" (R8). -/
def Config.legal (c : Config) : Bool :=
  decide (1 ≤ c.maxPayload) && decide (c.maxPayload ≤ 65535) && decide (1 ≤ c.queueCap) &&
  decide (1 ≤ c.senseTicks) && decide (1 ≤ c.phaseTicks) && decide (1 ≤ c.startupTicks)

/-- What must be equal on the two nodes of one system (00_scope.md R8(b)). -/
def Config.agree (c d : Config) : Bool :=
  decide (c.maxPayload = d.maxPayload) && decide (c.phaseTicks = d.phaseTicks) &&
  decide (c.senseTicks = d.senseTicks) && decide (c.tickPeriodMicros = d.tickPeriodMicros)

end Sys2Proof
end

