-- ==== Sys2Proof/Safety.lean ====
section
/-! DEFINITION. What claims about the block are stated in: the invariants of 10_state.md R26, R32, R40 (a state that has
them can make every step), the states that command sequences reach, and the outputs of a run. -/

namespace Sys2Proof.Machine

/-- 10_state.md R26(a), with R111's zero low half of `rs_len` while the low length byte is awaited. -/
abbrev CursorInv (s : State) : Prop :=
  (s.rsPhase = .awaitPayload → 1 ≤ s.rsLen.toNat ∧ s.rsPos.toNat < s.rsLen.toNat) ∧
  (s.rsPhase ≠ .awaitPayload → s.rsPos = 0#16) ∧
  (s.rsPhase = .awaitLengthLow → loByte s.rsLen = 0#8)

/-- The reassembly buffer: canonical, inside its address range (00_scope.md R11), and every byte of the frame in flight
that the completion will read is written (10_state.md R24). -/
abbrev BufferInv (s : State) : Prop :=
  Memory.wf s.rsBuf = true ∧ (∀ c ∈ s.rsBuf, c.1 < s.cfg.rxBufCap) ∧
  (s.rsPhase = .awaitPayload →
    ∀ a ∈ List.range (min s.rsPos.toNat s.cfg.rxBufCap), (Memory.read s.rsBuf a).isSome = true)

/-- 10_state.md R32, R40(b), R40(c), and the bound of R33. A window is never older than its phase, since both counts
start at 0 and every tick of the window counts in both (43_scheduler.md R155). -/
abbrev GateInv (s : State) : Prop :=
  (s.gate = .gSense → s.role = .transmit ∧ s.outQ ≠ [] ∧ s.senseCnt ≤ s.phaseCnt) ∧
  (s.gate = .gIdle → s.senseCnt = 0) ∧ s.senseCnt < s.cfg.senseTicks

/-- 10_state.md R30, R31, R40(d). -/
abbrev TimerInv (s : State) : Prop :=
  s.phaseCnt < s.cfg.phaseTicks ∧ s.startupCnt < s.cfg.startupTicks ∧
  (s.role = .idle → s.phaseCnt = 0) ∧ (s.role ≠ .idle → s.startupCnt = 0)

/-- 10_state.md R40(e), 44_queues.md R178. -/
abbrev QueueInv (s : State) : Prop :=
  s.outQ.length ≤ s.cfg.queueCap ∧ s.inQ.length ≤ s.cfg.queueCap ∧
  (∀ p ∈ s.outQ, p.length ≤ s.cfg.maxPayload) ∧ (∀ x ∈ s.inQ, x.data.length ≤ s.cfg.rxBufCap)

/-- 10_state.md R40(g). -/
abbrev FlagInv (s : State) : Prop := s.role = .transmit → s.occ = false

/-- The invariants of one node, over a legal configuration (10_state.md R40). -/
abbrev State.Inv (s : State) : Prop :=
  s.cfg.legal = true ∧ CursorInv s ∧ BufferInv s ∧ GateInv s ∧ TimerInv s ∧ QueueInv s ∧ FlagInv s

/-- The states that some command sequence reaches from reset under configuration `c`: at every step the environment
presents any input (00_scope.md R6). -/
inductive Reachable (c : Config) : State → Prop where
  | reset : Reachable c (State.resetOf c)
  | next {s t : State} (inp : PortInput) : Reachable c s → step (s.present inp) = .next t → Reachable c t

/-- A run on a list of inputs, with the outputs of each step in order; `none` when a step stops. -/
def runInputs : List PortInput → State → Option (State × List StepOut)
  | [], s => some (s, [])
  | inp :: is, s =>
    match step (s.present inp) with
    | .next t => (runInputs is t).map (fun r => (r.1, t.out :: r.2))
    | .fault _ => none
    | .refused _ => none

/-- What an input selects neither brings a byte nor triggers a transition nor resets: no `RX_BYTE`, `MANUAL`, `SRESET` or
`rst = 1`. A phase expiry is not excluded here, since it is the count of the ticks that says it (42_occupancy_gate.md
R142(a)). -/
def Selected.undisturbing : Selected → Bool
  | .nothing => true
  | .reset => false
  | .illegal _ => true
  | .command .nop => true
  | .command (.rxByte _) => false
  | .command .tick => true
  | .command .manual => false
  | .command .enqOut => true
  | .command .deqIn => true
  | .command .trySend => true
  | .command .sreset => false

/-- How many of the inputs run a given command. -/
def countCommand (i : Instr) (is : List PortInput) : Nat :=
  is.countP (fun inp => decide (selectInput inp = .command i))

/-- The frames a run put on the wire, in order (30_encoding.md R83: a step's `wire_out` is empty or one frame). -/
def framesOf (os : List StepOut) : List (List Byte) := (os.map StepOut.wireOut).filter (fun f => !f.isEmpty)

/-- The payloads a run accepted into `out_q`, in order: those of the `ENQ_OUT` steps that answered `ack = 1`
(44_queues.md R174). -/
def acceptedPayloads : List PortInput → List StepOut → List Payload
  | inp :: is, o :: os =>
    (if selectInput inp = .command .enqOut ∧ o.ack = true then [inp.msgIn.offered] else []) ++ acceptedPayloads is os
  | _, _ => []

/-- Two states that agree on all that a rule can still read. The stored length counts once its bytes have come (in
`AwaitLengthLow` only its high byte), the checksum byte and the stored prefix of the buffer while payload is awaited;
what an earlier frame or an earlier reset left in `rs_len`, `rs_cks` and `rs_buf` does not (10_state.md R24,
41_reassembler.md R118). -/
abbrev AgreeOnLive (s t : State) : Prop :=
  s.rsPhase = t.rsPhase ∧ s.rsPos = t.rsPos ∧ s.occ = t.occ ∧ s.role = t.role ∧ s.phaseCnt = t.phaseCnt ∧
  s.startupCnt = t.startupCnt ∧ s.gate = t.gate ∧ s.senseCnt = t.senseCnt ∧ s.outQ = t.outQ ∧ s.inQ = t.inQ ∧
  s.cfg = t.cfg ∧ s.pending = t.pending ∧ s.msgIn = t.msgIn ∧ s.out = t.out ∧
  (s.rsPhase = .awaitLengthLow → hiByte s.rsLen = hiByte t.rsLen) ∧
  (s.rsPhase = .awaitChecksum → s.rsLen = t.rsLen) ∧
  (s.rsPhase = .awaitPayload →
    s.rsLen = t.rsLen ∧ s.rsCks = t.rsCks ∧
    ∀ a ∈ List.range (min s.rsPos.toNat s.cfg.rxBufCap), bufRead s a = bufRead t a)

/-- The step that ended in `t` changed the role: it emitted a phase-change event (43_scheduler.md R153). -/
abbrev madeTransition (t : State) : Prop := Event.phaseTx ∈ t.out.events ∨ Event.phaseRx ∈ t.out.events

end Sys2Proof.Machine
end

