-- ==== Sys2Proof/Certificates/Slice0/Obligations.lean ====
section
/-! DEFINITION. The statements about the model, for the provers. Each docstring names the rules it formalises; a premise
`s.Inv` is the invariant that `Obligations.EveryStepKeepsTheInvariant` and `Obligations.InvariantHoldsAtReset` are
about. -/

open Sys2Proof Sys2Proof.Machine

/-! ## Encoding and decoding -/

/-- 30_encoding.md R76 to R78: every command is read back from its word. -/
def Obligations.DecodeReadsBackEncode : Prop :=
  ∀ i : Instr, i.wf = true → decode (encode i) = .ok i

/-- 30_encoding.md R77, R78: the decoder reads a command exactly from the words that match its row, `RX_BYTE` with the
low byte of the word as operand; for every other command two words that differ only in `cmd[7:0]` are the same command,
and the encoder writes those bits as zero. -/
def Obligations.DecoderFollowsOpcodeMap : Prop :=
  (∀ (w : Half) (i : Instr),
    decode w = .ok i ↔
      (∃ r ∈ opcodeRows, r.mnemonic = mnemonicOf i ∧ w &&& r.mask = r.pattern) ∧
      (∀ b, i = .rxByte b → b = w.extractLsb' 0 8)) ∧
  (∀ (hi lo lo' : Byte) (i : Instr), (∀ b, i ≠ .rxByte b) → decode (hi ++ lo) = .ok i → decode (hi ++ lo') = .ok i) ∧
  (∀ i : Instr, (∀ b, i ≠ .rxByte b) → (encode i).extractLsb' 0 8 = 0#8)

/-- 30_encoding.md R79: which words are illegal. -/
def Obligations.IllegalWordsAreTheReservedOnes : Prop :=
  ∀ w : Half, (∃ e, decode w = .error e) ↔
    ((7 ≤ (w.extractLsb' 12 4).toNat ∧ (w.extractLsb' 12 4).toNat ≤ 14) ∨ w.extractLsb' 8 4 ≠ 0#4)

/-- Words written out from 30_encoding.md R76 to R79 decode to the commands they stand for. -/
def Obligations.WrittenOutWordsDecode : Prop :=
  decode 0b0000000011111111#16 = .ok .nop ∧ decode 0b0001000001100111#16 = .ok (.rxByte 0x67#8) ∧
  decode 0b0010000010101011#16 = .ok .tick ∧ decode 0b0011000000000000#16 = .ok .manual ∧
  decode 0b0100000000000000#16 = .ok .enqOut ∧ decode 0b0101000000000000#16 = .ok .deqIn ∧
  decode 0b0110000000000000#16 = .ok .trySend ∧ decode 0b1111000010101010#16 = .ok .sreset ∧
  decode 0b0111000000000000#16 = .error .reservedOpcode ∧ decode 0b0001000100000000#16 = .error .zeroFieldNotZero

/-! ## The step -/

/-- 45_control.md R188, 30_encoding.md R76, R80: a presented word that decodes to a well-formed command runs it, on the
state without that input and with its message port. -/
def Obligations.StepRunsTheDecodedCommand : Prop :=
  ∀ (s : State) (inp : PortInput) (rest : List PortInput) (i : Instr),
    s.pending = inp :: rest → inp.rst = false → decode inp.cmd = .ok i → i.wf = true →
    step s = exec i { s with pending := rest, msgIn := inp.msgIn }

/-- 00_scope.md R6: "when no command is presented nothing changes". -/
def Obligations.StepWithoutCommandChangesNothing : Prop :=
  ∀ s : State, s.pending = [] → step s = .next s

/-- 30_encoding.md R85: a step with `rst = 1` does what `SRESET` does, whatever the command word. -/
def Obligations.ResetInputDoesWhatSresetDoes : Prop :=
  ∀ (s : State) (inp : PortInput) (rest : List PortInput),
    s.pending = inp :: rest → inp.rst = true →
    step s = exec .sreset { s with pending := rest, msgIn := inp.msgIn }

/-- 45_control.md R186: an illegal word, by 30_encoding.md R79 one with `cmd[15:12]` from 0x7 to 0xE or `cmd[11:8]` not
zero, gives one event and `ack = 0`, and changes nothing of the node. -/
def Obligations.IllegalWordChangesNothing : Prop :=
  ∀ (s : State) (inp : PortInput) (rest : List PortInput),
    s.pending = inp :: rest → inp.rst = false →
    ((7 ≤ (inp.cmd.extractLsb' 12 4).toNat ∧ (inp.cmd.extractLsb' 12 4).toNat ≤ 14) ∨
      inp.cmd.extractLsb' 8 4 ≠ 0#4) →
    step s = .next { s with
                     pending := rest
                     msgIn := inp.msgIn
                     out := { ack := false, events := [.illegalCommand], wireOut := [], msgOut := none } }

/-- 00_scope.md R7: "None changes after reset": no step changes a parameter. -/
def Obligations.NoStepChangesTheParameters : Prop :=
  ∀ s t : State, step s = .next t → t.cfg = s.cfg

/-! ## Reset, NOP, SRESET -/

/-- 10_state.md R42: the state right after reset; `rs_buf`, unspecified there, is not constrained. -/
def Obligations.ResetValues : Prop :=
  ∀ c : Config,
    (State.resetOf c).rsPhase = .awaitLengthHigh ∧ (State.resetOf c).rsLen = 0#16 ∧ (State.resetOf c).rsCks = 0#8 ∧
    (State.resetOf c).rsPos = 0#16 ∧ (State.resetOf c).occ = false ∧ (State.resetOf c).role = .idle ∧
    (State.resetOf c).phaseCnt = 0 ∧ (State.resetOf c).startupCnt = 0 ∧ (State.resetOf c).gate = .gIdle ∧
    (State.resetOf c).senseCnt = 0 ∧ (State.resetOf c).outQ = [] ∧ (State.resetOf c).inQ = []

/-- 45_control.md R185: `NOP`, word 0x0000, answers the default outputs and changes nothing. -/
def Obligations.NopChangesNothing : Prop :=
  encode .nop = 0x0000#16 ∧
  ∀ s : State,
    exec .nop s = .next { s with out := { ack := true, events := [], wireOut := [], msgOut := none } }

/-- 45_control.md R187, 70_reset_and_hazards.md R230: `SRESET`, word 0xF000, completes in every state with every element at its
reset value and the default outputs; `rs_buf` becomes unspecified and is not constrained; what is no state of the node
stays. -/
def Obligations.SresetResetsEverything : Prop :=
  encode .sreset = 0xF000#16 ∧
  ∀ s : State, ∃ t : State, exec .sreset s = .next t ∧
    t.rsPhase = .awaitLengthHigh ∧ t.rsLen = 0#16 ∧ t.rsCks = 0#8 ∧ t.rsPos = 0#16 ∧ t.occ = false ∧
    t.role = .idle ∧ t.phaseCnt = 0 ∧ t.startupCnt = 0 ∧ t.gate = .gIdle ∧ t.senseCnt = 0 ∧ t.outQ = [] ∧
    t.inQ = [] ∧ t.out = { ack := true, events := [], wireOut := [], msgOut := none } ∧
    t.cfg = s.cfg ∧ t.pending = s.pending ∧ t.msgIn = s.msgIn

/-! ## TICK and MANUAL -/

/-- 43_scheduler.md R156: `TICK` in role `Idle` counts the startup window and at its end enters the default role by the
transition of R151. -/
def Obligations.TickInIdleCountsTheStartupWindow : Prop :=
  ∀ s : State, s.role = .idle →
    (s.startupCnt + 1 ≠ s.cfg.startupTicks →
      exec .tick s = .next { s with
        startupCnt := s.startupCnt + 1
        out := { ack := true, events := [], wireOut := [], msgOut := none } }) ∧
    (s.startupCnt + 1 = s.cfg.startupTicks →
      exec .tick s = .next { s with
        rsPhase := .awaitLengthHigh, rsPos := 0#16, occ := false
        role := roleOf s.cfg.defaultRole, phaseCnt := 0, startupCnt := 0
        out := { ack := true, events := [phaseEvent s.cfg.defaultRole], wireOut := [], msgOut := none } })

/-- 43_scheduler.md R155, R159, 42_occupancy_gate.md R139: the `TICK` that ends a phase makes the transition whatever
the sense window; an open window is cancelled silently and its message stays. -/
def Obligations.TickEndsThePhase : Prop :=
  ∀ s : State, s.phaseCnt + 1 = s.cfg.phaseTicks →
    (s.role = .receive →
      exec .tick s = .next { s with
        rsPhase := .awaitLengthHigh, rsPos := 0#16, occ := false, role := .transmit, phaseCnt := 0, startupCnt := 0
        out := { ack := true, events := [.phaseTx], wireOut := [], msgOut := none } }) ∧
    (s.role = .transmit →
      exec .tick s = .next { s with
        rsPhase := .awaitLengthHigh, rsPos := 0#16, occ := false, role := .receive, phaseCnt := 0, startupCnt := 0
        gate := .gIdle, senseCnt := (if s.gate = .gSense then 0 else s.senseCnt)
        out := { ack := true, events := [.phaseRx], wireOut := [], msgOut := none } })

/-- 43_scheduler.md R155, 42_occupancy_gate.md R137: a `TICK` that ends neither the phase nor a window only counts. -/
def Obligations.TickCountsThePhaseAndTheWindow : Prop :=
  ∀ s : State, s.role ≠ .idle → s.phaseCnt + 1 ≠ s.cfg.phaseTicks →
    (¬ (s.role = .transmit ∧ s.gate = .gSense) →
      exec .tick s = .next { s with
        phaseCnt := s.phaseCnt + 1
        out := { ack := true, events := [], wireOut := [], msgOut := none } }) ∧
    (s.role = .transmit → s.gate = .gSense → s.senseCnt + 1 ≠ s.cfg.senseTicks →
      exec .tick s = .next { s with
        phaseCnt := s.phaseCnt + 1, senseCnt := s.senseCnt + 1
        out := { ack := true, events := [], wireOut := [], msgOut := none } })

/-- 42_occupancy_gate.md R138, 40_framer.md R100, R101: the end of a sense window. Clear: the whole frame goes out, the
length big-endian and the 8-bit sum before the payload. Not clear: nothing goes out. The message leaves the queue
either way, and `occ` is not changed. -/
def Obligations.SenseWindowEndsSendingOrColliding : Prop :=
  ∀ (s : State) (p : Payload) (q : List Payload),
    s.role = .transmit → s.gate = .gSense → s.phaseCnt + 1 ≠ s.cfg.phaseTicks →
    s.senseCnt + 1 = s.cfg.senseTicks → s.outQ = p :: q →
    (s.occ = false → p.length ≤ s.cfg.maxPayload →
      exec .tick s = .next { s with
        phaseCnt := s.phaseCnt + 1, gate := .gIdle, senseCnt := 0, outQ := q
        out := { ack := true, events := [.txSuccess], msgOut := none
                 wireOut := [BitVec.ofNat 8 (p.length / 256), BitVec.ofNat 8 (p.length % 256),
                             BitVec.ofNat 8 (p.map BitVec.toNat).sum] ++ p } }) ∧
    (s.occ = true →
      exec .tick s = .next { s with
        phaseCnt := s.phaseCnt + 1, gate := .gIdle, senseCnt := 0, outQ := q
        out := { ack := true, events := [.collision], wireOut := [], msgOut := none } })

/-- Where `TICK` stops, and that it stops nowhere else: in every state that meets neither condition it answers a next
state, and so in every state with the invariant. Both stops are the model's, outside the invariant: `pop_out` on an empty
queue (44_queues.md R173; log 7) and `encode` of a payload the spec does not define it for (40_framer.md R102; log 9). -/
def Obligations.TickStopsOnlyOutsideTheInvariant : Prop :=
  ∀ s : State,
    (exec .tick s = .fault .popEmpty ↔
      s.role = .transmit ∧ s.gate = .gSense ∧ s.phaseCnt + 1 ≠ s.cfg.phaseTicks ∧
      s.senseCnt + 1 = s.cfg.senseTicks ∧ s.outQ = []) ∧
    (exec .tick s = .refused .encodeOversize ↔
      s.role = .transmit ∧ s.gate = .gSense ∧ s.phaseCnt + 1 ≠ s.cfg.phaseTicks ∧
      s.senseCnt + 1 = s.cfg.senseTicks ∧ s.occ = false ∧
      ∃ p q, s.outQ = p :: q ∧ s.cfg.maxPayload < p.length) ∧
    (¬ (s.role = .transmit ∧ s.gate = .gSense ∧ s.phaseCnt + 1 ≠ s.cfg.phaseTicks ∧
        s.senseCnt + 1 = s.cfg.senseTicks ∧ s.outQ = []) →
     ¬ (s.role = .transmit ∧ s.gate = .gSense ∧ s.phaseCnt + 1 ≠ s.cfg.phaseTicks ∧
        s.senseCnt + 1 = s.cfg.senseTicks ∧ s.occ = false ∧
        ∃ p q, s.outQ = p :: q ∧ s.cfg.maxPayload < p.length) →
     ∃ t, exec .tick s = .next t) ∧
    (s.Inv → ∃ t, exec .tick s = .next t)

/-- 43_scheduler.md R157, R151: `MANUAL`, word 0x3000, completes in every state with the transition to the role the rule names; a
window it cancels keeps its message (42_occupancy_gate.md R139). -/
def Obligations.ManualTogglesTheRole : Prop :=
  encode .manual = 0x3000#16 ∧
  ∀ s : State,
    (s.role = .idle →
      exec .manual s = .next { s with
        rsPhase := .awaitLengthHigh, rsPos := 0#16, occ := false
        role := roleOf s.cfg.manualStartRole, phaseCnt := 0, startupCnt := 0
        out := { ack := true, events := [phaseEvent s.cfg.manualStartRole], wireOut := [], msgOut := none } }) ∧
    (s.role = .transmit →
      exec .manual s = .next { s with
        rsPhase := .awaitLengthHigh, rsPos := 0#16, occ := false, role := .receive, phaseCnt := 0, startupCnt := 0
        gate := .gIdle, senseCnt := (if s.gate = .gSense then 0 else s.senseCnt)
        out := { ack := true, events := [.phaseRx], wireOut := [], msgOut := none } }) ∧
    (s.role = .receive →
      exec .manual s = .next { s with
        rsPhase := .awaitLengthHigh, rsPos := 0#16, occ := false, role := .transmit, phaseCnt := 0, startupCnt := 0
        out := { ack := true, events := [.phaseTx], wireOut := [], msgOut := none } })

/-! ## RX_BYTE -/

/-- 41_reassembler.md R123: in role `Idle` a byte only marks occupancy. -/
def Obligations.RxByteInIdleOnlyMarks : Prop :=
  ∀ (b : Byte) (s : State), s.role = .idle →
    exec (.rxByte b) s = .next { s with
      occ := true, out := { ack := true, events := [], wireOut := [], msgOut := none } }

/-- 41_reassembler.md R122, 42_occupancy_gate.md R139: in role `Transmit` a byte is a collision; an open window is
cancelled and its message lost; the byte is discarded and `occ` ends 0. -/
def Obligations.RxByteInTransmitCollides : Prop :=
  ∀ (b : Byte) (s : State), s.role = .transmit →
    (s.gate = .gIdle →
      exec (.rxByte b) s = .next { s with
        rsPhase := .awaitLengthHigh, rsPos := 0#16, occ := false, role := .receive, phaseCnt := 0, startupCnt := 0
        out := { ack := true, events := [.collision, .phaseRx], wireOut := [], msgOut := none } }) ∧
    (∀ p q, s.gate = .gSense → s.outQ = p :: q →
      exec (.rxByte b) s = .next { s with
        rsPhase := .awaitLengthHigh, rsPos := 0#16, occ := false, role := .receive, phaseCnt := 0, startupCnt := 0
        gate := .gIdle, senseCnt := 0, outQ := q
        out := { ack := true, events := [.collision, .phaseRx], wireOut := [], msgOut := none } })

/-- 41_reassembler.md R111, R112: in role `Receive` the two length bytes, high first. -/
def Obligations.RxByteStoresTheLengthBytes : Prop :=
  ∀ (b : Byte) (s : State), s.role = .receive →
    (s.rsPhase = .awaitLengthHigh →
      exec (.rxByte b) s = .next { s with
        rsLen := b ++ 0x00#8, rsPhase := .awaitLengthLow, occ := true
        out := { ack := true, events := [], wireOut := [], msgOut := none } }) ∧
    (s.rsPhase = .awaitLengthLow →
      exec (.rxByte b) s = .next { s with
        rsLen := s.rsLen.extractLsb' 8 8 ++ b, rsPhase := .awaitChecksum, occ := true
        out := { ack := true, events := [], wireOut := [], msgOut := none } })

/-- 41_reassembler.md R113, R114, R121, 44_queues.md R172: the checksum byte; a zero-length frame completes on it, and
its result goes to the inbound queue or is dropped and reported. -/
def Obligations.RxByteTakesTheChecksumByte : Prop :=
  ∀ (b : Byte) (s : State), s.role = .receive → s.rsPhase = .awaitChecksum →
    (s.rsLen ≠ 0#16 →
      exec (.rxByte b) s = .next { s with
        rsCks := b, rsPos := 0#16, rsPhase := .awaitPayload, occ := true
        out := { ack := true, events := [], wireOut := [], msgOut := none } }) ∧
    (s.rsLen = 0#16 → s.inQ.length ≠ s.cfg.queueCap →
      exec (.rxByte b) s = .next { s with
        rsCks := b, rsPos := 0#16, rsPhase := .awaitLengthHigh, occ := true
        inQ := s.inQ ++ [if b = 0#8 then .payload [] else .errChecksum]
        out := { ack := true, events := [], wireOut := [], msgOut := none } }) ∧
    (s.rsLen = 0#16 → s.inQ.length = s.cfg.queueCap →
      exec (.rxByte b) s = .next { s with
        rsCks := b, rsPos := 0#16, rsPhase := .awaitLengthHigh, occ := true
        out := { ack := true, events := [.queueFullIn], wireOut := [], msgOut := none } })

/-- 41_reassembler.md R115, R116: a payload byte before the last is stored at `rs_pos` if the buffer reaches that far,
dropped otherwise, and counted either way; every other byte of the buffer reads as before, and so does every other
element. -/
def Obligations.RxByteStoresAPayloadByte : Prop :=
  ∀ (b : Byte) (s : State), s.role = .receive → s.rsPhase = .awaitPayload →
    s.rsPos.toNat + 1 < s.rsLen.toNat →
    ∃ t, exec (.rxByte b) s = .next t ∧
      t.rsPos.toNat = s.rsPos.toNat + 1 ∧
      (s.rsPos.toNat < s.cfg.rxBufCap → bufRead t s.rsPos.toNat = b) ∧
      (∀ a, (s.rsPos.toNat < s.cfg.rxBufCap → a ≠ s.rsPos.toNat) → bufRead t a = bufRead s a) ∧
      t = { s with
            rsBuf := t.rsBuf, rsPos := t.rsPos, occ := true
            out := { ack := true, events := [], wireOut := [], msgOut := none } }

/-- 41_reassembler.md R116, R117, R121, 44_queues.md R172: the last payload byte completes the frame. The stored prefix,
the last byte included, is checked against `rs_cks`; its payload or an error token is appended to `in_q`, or dropped and
reported when the queue is full; the cursor goes back to the start of a frame. -/
def Obligations.RxByteCompletesTheFrame : Prop :=
  ∀ (b : Byte) (s : State), s.role = .receive → s.rsPhase = .awaitPayload →
    s.rsPos.toNat + 1 = s.rsLen.toNat →
    let p : Payload := (List.range (min s.rsLen.toNat s.cfg.rxBufCap)).map
      (fun a => if a = s.rsPos.toNat then b else bufRead s a)
    let item : InItem := if cks p = s.rsCks then .payload p else .errChecksum
    ∃ t, exec (.rxByte b) s = .next t ∧
      (s.rsPos.toNat < s.cfg.rxBufCap → bufRead t s.rsPos.toNat = b) ∧
      (∀ a, (s.rsPos.toNat < s.cfg.rxBufCap → a ≠ s.rsPos.toNat) → bufRead t a = bufRead s a) ∧
      t = { s with
            rsBuf := t.rsBuf, rsPos := 0#16, rsPhase := .awaitLengthHigh, occ := true
            inQ := if s.inQ.length = s.cfg.queueCap then s.inQ else s.inQ ++ [item]
            out := { ack := true, wireOut := [], msgOut := none
                     events := if s.inQ.length = s.cfg.queueCap then [.queueFullIn] else [] } }

/-- 41_reassembler.md R120, 60_exceptions.md R215: `RX_BYTE` is enabled in every state and always acknowledges; it never
puts a byte on the wire or an item on the message port. In a state outside the invariant of R32, a collision with an
empty `out_q`, this rests on log 8. -/
def Obligations.RxByteCompletesInEveryState : Prop :=
  ∀ (b : Byte) (s : State), ∃ t, exec (.rxByte b) s = .next t ∧
    t.out.ack = true ∧ t.out.wireOut = [] ∧ t.out.msgOut = none

/-! ## ENQ_OUT, DEQ_IN, TRY_SEND -/

/-- 30_encoding.md R80: the payload offered is `data[0 .. len-1]`; bytes at index `len` and above do not matter. -/
def Obligations.OfferedPayloadIsTheFirstLenBytes : Prop :=
  ∀ m : MsgIn, m.offered.length = m.len.toNat ∧
    (m.len.toNat ≤ m.data.length → m.offered = m.data.take m.len.toNat) ∧
    (∀ junk : List Byte, m.len.toNat ≤ m.data.length →
      MsgIn.offered { m with data := m.data.take m.len.toNat ++ junk } = m.offered)

/-- 44_queues.md R174: `ENQ_OUT`, word 0x4000, completes in every state: refused for its size first, then for a full queue, else
appended. -/
def Obligations.EnqOutAppendsOrRefuses : Prop :=
  encode .enqOut = 0x4000#16 ∧
  ∀ s : State,
    (s.cfg.maxPayload < s.msgIn.len.toNat →
      exec .enqOut s = .next { s with
        out := { ack := false, events := [.oversizePayload], wireOut := [], msgOut := none } }) ∧
    (s.msgIn.len.toNat ≤ s.cfg.maxPayload → s.outQ.length = s.cfg.queueCap →
      exec .enqOut s = .next { s with
        out := { ack := false, events := [.queueFullOut], wireOut := [], msgOut := none } }) ∧
    (s.msgIn.len.toNat ≤ s.cfg.maxPayload → s.outQ.length ≠ s.cfg.queueCap →
      exec .enqOut s = .next { s with
        outQ := s.outQ ++ [s.msgIn.offered]
        out := { ack := true, events := [], wireOut := [], msgOut := none } })

/-- 44_queues.md R175: `DEQ_IN`, word 0x5000, completes in every state: in role `Receive` it hands over and removes the oldest item,
reporting a checksum-error token; otherwise it answers `ack = 0` and nothing changes. -/
def Obligations.DeqInHandsOverTheOldestItem : Prop :=
  encode .deqIn = 0x5000#16 ∧
  ∀ s : State,
    (∀ x q, s.role = .receive → s.inQ = x :: q →
      exec .deqIn s = .next { s with
        inQ := q
        out := { ack := true, events := (if x = .errChecksum then [.checksumError] else []), wireOut := []
                 msgOut := some x } }) ∧
    ((s.role ≠ .receive ∨ s.inQ = []) →
      exec .deqIn s = .next { s with out := { ack := false, events := [], wireOut := [], msgOut := none } })

/-- 42_occupancy_gate.md R134, R135: an enabled `TRY_SEND`, word 0x6000, clears the flag and opens a window, the message staying at the
head of the queue; one that is not enabled changes nothing and answers `ack = 0`. -/
def Obligations.TrySendOpensAWindowOrChangesNothing : Prop :=
  encode .trySend = 0x6000#16 ∧
  ∀ s : State,
    (s.role = .transmit → s.gate = .gIdle → s.outQ ≠ [] →
      exec .trySend s = .next { s with
        occ := false, senseCnt := 0, gate := .gSense
        out := { ack := true, events := [], wireOut := [], msgOut := none } }) ∧
    ((s.role ≠ .transmit ∨ s.gate = .gSense ∨ s.outQ = []) →
      exec .trySend s = .next { s with out := { ack := false, events := [], wireOut := [], msgOut := none } })

/-! ## The frame and the reassembler -/

/-- 40_framer.md R101: the checksum is the 8-bit accumulator of the bytes; it is blind to their order and to zero
bytes. -/
def Obligations.ChecksumIsTheByteSum : Prop :=
  (∀ p : Payload, cks p = p.foldl (fun acc b => acc + b) 0#8) ∧
  (∀ p q : Payload, p.Perm q → cks p = cks q) ∧
  (∀ p q : Payload, cks (p ++ 0#8 :: q) = cks (p ++ q))

/-- 40_framer.md R100, R103(a), (c): the layout of a frame, its length, and that the payload can be read off it. -/
def Obligations.FrameLayoutIsInjective : Prop :=
  (∀ p : Payload, p.length ≤ 65535 →
    encodeFrame p = BitVec.ofNat 8 (p.length / 256) :: BitVec.ofNat 8 (p.length % 256) :: cks p :: p) ∧
  (∀ (c : Config) (p : Payload) (f : List Byte), frameOf c p = some f → f.length = p.length + 3 ∧ f.length ≤ c.frameBufCap) ∧
  (∀ p q : Payload, encodeFrame p = encodeFrame q → p = q)

/-- 41_reassembler.md R124: the round trip. From the start of a frame, the bytes of `encode(p)` give nothing before the
last and `FrameReady(p)` on the last, and leave the reassembler at the start of a frame. -/
def Obligations.FrameRoundTrip : Prop :=
  ∀ (s : State) (p : Payload), s.cfg.legal = true → p.length ≤ s.cfg.maxPayload → s.rsPhase = .awaitLengthHigh →
    (feedBlock (encodeFrame p) s).1 = [.frameReady p] ∧
    (feedBlock (encodeFrame p).dropLast s).1 = [] ∧
    (feedBlock (encodeFrame p) s).2.rsPhase = .awaitLengthHigh ∧ (feedBlock (encodeFrame p) s).2.rsPos = 0#16 ∧
    deframe (encodeFrame p) s = some p

/-- 41_reassembler.md R125: one changed payload byte is always a checksum error. -/
def Obligations.SinglePayloadCorruptionIsDetected : Prop :=
  ∀ (s : State) (p : Payload) (i : Nat) (b : Byte),
    s.cfg.legal = true → p.length ≤ s.cfg.maxPayload → s.rsPhase = .awaitLengthHigh →
    i < p.length → p[i]? ≠ some b →
    (feedBlock ((encodeFrame p).set (3 + i) b) s).1 = [.checksumError]

/-- 41_reassembler.md R126, R75, R117: a frame longer than the buffer is followed to its end: nothing before the last
byte, then the stored prefix alone decides, and a match delivers the truncated payload. -/
def Obligations.OversizeFrameIsJudgedByItsPrefix : Prop :=
  ∀ (s : State) (hi lo c : Byte) (bs : List Byte),
    s.cfg.legal = true → s.rsPhase = .awaitLengthHigh →
    bs.length = 256 * hi.toNat + lo.toNat → s.cfg.rxBufCap < bs.length →
    (feedBlock (hi :: lo :: c :: bs) s).1 =
      [if cks (bs.take s.cfg.rxBufCap) = c then .frameReady (bs.take s.cfg.rxBufCap) else .checksumError] ∧
    (feedBlock (hi :: lo :: c :: bs).dropLast s).1 = []

/-! ## What every command respects -/

/-- 10_state.md R37: which command writes which element, under the condition and with the effect the table gives; a
command not listed for an element never writes it. The `TICK` that ends a window is the one in which neither the phase
ends (43_scheduler.md R155) nor the window goes on (42_occupancy_gate.md R137). -/
def Obligations.OnlyListedCommandsWriteEachElement : Prop :=
  ∀ (i : Instr) (s t : State), exec i s = .next t →
    ((t.rsPhase ≠ s.rsPhase ∨ t.rsPos ≠ s.rsPos) →
      ((∃ b, i = .rxByte b) ∧ s.role ≠ .idle) ∨ ((i = .tick ∨ i = .manual) ∧ madeTransition t) ∨ i = .sreset) ∧
    ((t.rsLen ≠ s.rsLen ∨ t.rsCks ≠ s.rsCks ∨ t.rsBuf ≠ s.rsBuf) →
      ((∃ b, i = .rxByte b) ∧ s.role = .receive) ∨ (i = .sreset ∧ t.rsLen = 0#16 ∧ t.rsCks = 0#8)) ∧
    (t.occ ≠ s.occ →
      ((∃ b, i = .rxByte b) ∧ (t.occ = true ∨ (t.occ = false ∧ madeTransition t))) ∨
      (i = .trySend ∧ t.out.ack = true ∧ t.occ = false) ∨
      ((i = .tick ∨ i = .manual) ∧ madeTransition t ∧ t.occ = false) ∨ i = .sreset) ∧
    ((t.role ≠ s.role ∨ t.phaseCnt ≠ s.phaseCnt ∨ t.startupCnt ≠ s.startupCnt) →
      i = .tick ∨ i = .manual ∨ ((∃ b, i = .rxByte b) ∧ s.role = .transmit) ∨ i = .sreset) ∧
    ((t.gate ≠ s.gate ∨ t.senseCnt ≠ s.senseCnt) →
      i = .trySend ∨ i = .tick ∨ madeTransition t ∨ i = .sreset) ∧
    (t.outQ ≠ s.outQ →
      (i = .enqOut ∧ t.out.ack = true ∧ ∃ p, t.outQ = s.outQ ++ [p]) ∨
      (i = .tick ∧ s.role = .transmit ∧ s.gate = .gSense ∧ s.senseCnt + 1 = s.cfg.senseTicks ∧
        s.phaseCnt + 1 ≠ s.cfg.phaseTicks ∧ ∃ p, s.outQ = p :: t.outQ) ∨
      ((∃ b, i = .rxByte b) ∧ s.role = .transmit ∧ s.gate = .gSense ∧ ∃ p, s.outQ = p :: t.outQ) ∨
      i = .sreset) ∧
    (t.inQ ≠ s.inQ →
      ((∃ b, i = .rxByte b) ∧ s.role = .receive ∧ ∃ x, t.inQ = s.inQ ++ [x]) ∨
      (i = .deqIn ∧ ∃ x, s.inQ = x :: t.inQ) ∨ i = .sreset) ∧
    (t.bufEpoch ≠ s.bufEpoch → i = .sreset) ∧ t.cfg = s.cfg ∧ t.pending = s.pending ∧ t.msgIn = s.msgIn

/-- 42_occupancy_gate.md R133: the complete list of writers of `occ`, with the value each leaves. -/
def Obligations.OccupancyFlagWriters : Prop :=
  ∀ (i : Instr) (s t : State), exec i s = .next t →
    ((∃ b, i = .rxByte b) → t.occ = decide (s.role ≠ .transmit)) ∧
    (i = .trySend → t.out.ack = true → t.occ = false) ∧
    (madeTransition t → t.occ = false) ∧
    (i = .sreset → t.occ = false) ∧
    ((∀ b, i ≠ .rxByte b) → ¬ (i = .trySend ∧ t.out.ack = true) → ¬ madeTransition t → i ≠ .sreset → t.occ = s.occ)

/-- 43_scheduler.md R150, R160: the role after every command. -/
def Obligations.RoleFollowsTheTransitionTable : Prop :=
  ∀ (i : Instr) (s t : State), exec i s = .next t →
    t.role = match i with
      | .rxByte _ => if s.role = .transmit then .receive else s.role
      | .tick =>
        if s.role = .idle then
          (if s.startupCnt + 1 = s.cfg.startupTicks then roleOf s.cfg.defaultRole else .idle)
        else if s.phaseCnt + 1 = s.cfg.phaseTicks then
          (if s.role = .transmit then .receive else .transmit)
        else s.role
      | .manual =>
        if s.role = .idle then roleOf s.cfg.manualStartRole
        else if s.role = .transmit then .receive else .transmit
      | .sreset => .idle
      | .nop => s.role
      | .enqOut => s.role
      | .deqIn => s.role
      | .trySend => s.role

/-- 43_scheduler.md R162, 10_state.md R40(f): what a transition leaves. -/
def Obligations.TransitionLeavesTheReassemblerReset : Prop :=
  ∀ (i : Instr) (s t : State), s.Inv → exec i s = .next t → madeTransition t →
    t.rsPos = 0#16 ∧ t.rsPhase = .awaitLengthHigh ∧ t.occ = false ∧ t.gate = .gIdle ∧ t.phaseCnt = 0

/-- 30_encoding.md R86: at most two events a step, two only for `RX_BYTE` in role `Transmit`, in that order. -/
def Obligations.AtMostTwoEventsInOrder : Prop :=
  ∀ (inp : PortInput) (s t : State), stepInput inp s = .next t →
    t.out.events.length ≤ 2 ∧
    (t.out.events.length = 2 →
      (∃ b, selectInput inp = .command (.rxByte b)) ∧ s.role = .transmit ∧ t.out.events = [.collision, .phaseRx])

/-- 30_encoding.md R83, 42_occupancy_gate.md R140: bytes go on the wire only in the `TICK` that ends a sense window with
the channel clear, and then they are exactly one whole frame, that of the oldest message. -/
def Obligations.WireCarriesOnlyWholeFrames : Prop :=
  ∀ (inp : PortInput) (s t : State), stepInput inp s = .next t → t.out.wireOut ≠ [] →
    selectInput inp = .command .tick ∧ s.role = .transmit ∧ s.gate = .gSense ∧ s.senseCnt + 1 = s.cfg.senseTicks ∧ s.occ = false ∧
    t.out.events = [.txSuccess] ∧ t.gate = .gIdle ∧
    ∃ p q, s.outQ = p :: q ∧ frameOf s.cfg p = some t.out.wireOut ∧ t.outQ = q

/-- 00_scope.md R13, 60_exceptions.md R216: the commands that answer `ack = 0`, and when. -/
def Obligations.AckIsZeroExactlyWhenRefused : Prop :=
  ∀ (i : Instr) (s t : State), exec i s = .next t →
    (t.out.ack = false ↔
      (i = .trySend ∧ (s.role ≠ .transmit ∨ s.gate = .gSense ∨ s.outQ = [])) ∨
      (i = .deqIn ∧ (s.role ≠ .receive ∨ s.inQ = [])) ∨
      (i = .enqOut ∧ (s.cfg.maxPayload < s.msgIn.len.toNat ∨ s.outQ.length = s.cfg.queueCap)))

/-- 44_queues.md R176, R175: in every step but a reset the inbound queue hands over its head, or grows at its tail by at
most one item, or stays. -/
def Obligations.InboundQueueIsFirstInFirstOut : Prop :=
  ∀ (i : Instr) (s t : State), i ≠ .sreset → exec i s = .next t →
    (t.out.msgOut = none ∧ ∃ xs : List InItem, xs.length ≤ 1 ∧ t.inQ = s.inQ ++ xs) ∨
    (∃ x, t.out.msgOut = some x ∧ s.inQ = x :: t.inQ)

/-! ## Invariants and runs -/

/-- 10_state.md R40: the invariants hold right after reset, for every legal configuration. -/
def Obligations.InvariantHoldsAtReset : Prop :=
  ∀ c : Config, c.legal = true → (State.resetOf c).Inv

/-- 10_state.md R26, R32, R40: every step from a state with the invariants leads to one with the invariants. -/
def Obligations.EveryStepKeepsTheInvariant : Prop :=
  ∀ s t : State, s.Inv → step s = .next t → t.Inv

/-- 10_state.md R40: the invariants hold in every state that some command sequence reaches. -/
def Obligations.ReachableStatesHaveTheInvariant : Prop :=
  ∀ (c : Config) (s : State), c.legal = true → Reachable c s → s.Inv ∧ s.cfg = c

/-- 60_exceptions.md R200, 41_reassembler.md R110, 43_scheduler.md R151: no error stops the block; from every state with
the invariants the step answers a next state, whatever is presented. -/
def Obligations.NoStepStopsTheBlock : Prop :=
  ∀ s : State, s.Inv → ∃ t, step s = .next t ∧ t.Inv

/-- 42_occupancy_gate.md R143: no command sequence reaches the collision branch of `resolve()`: a `TICK` never reports a
collision. -/
def Obligations.TickNeverReportsACollision : Prop :=
  ∀ (c : Config) (s t : State), c.legal = true → Reachable c s → exec .tick s = .next t →
    Event.collision ∉ t.out.events

/-- 00_scope.md R8(c), 70_reset_and_hazards.md R241: with `PHASE_TICKS <= SENSE_TICKS` nothing is ever sent. -/
def Obligations.NothingIsSentIfThePhaseIsTooShort : Prop :=
  ∀ (c : Config) (is : List PortInput) (t : State) (os : List StepOut),
    c.legal = true → c.phaseTicks ≤ c.senseTicks → runInputs is (State.resetOf c) = some (t, os) →
    ∀ o ∈ os, o.wireOut = [] ∧ Event.txSuccess ∉ o.events

/-- 42_occupancy_gate.md R142(a), R134, R136: after an accepted `TRY_SEND`, whatever comes between its `SENSE_TICKS` ticks
that is no byte, no `MANUAL` and no reset, with no phase expiry among them, the last of the ticks sends the oldest message;
no step before puts anything on the wire or reports a success or a collision, and with nothing but ticks none outputs
anything. Messages accepted on the way stand behind. -/
def Obligations.ClearSenseWindowSends : Prop :=
  ∀ (s : State) (p : Payload) (q : List Payload) (is : List PortInput),
    s.Inv → s.role = .transmit → s.gate = .gIdle → s.outQ = p :: q →
    (∀ inp ∈ is, (selectInput inp).undisturbing = true) → countCommand .tick is + 1 = s.cfg.senseTicks →
    s.phaseCnt + s.cfg.senseTicks < s.cfg.phaseTicks →
    ∃ t os, runInputs ((cmdInput .trySend :: is) ++ [cmdInput .tick]) s = some (t, os) ∧
      os.getLast? = some { ack := true, events := [.txSuccess], wireOut := encodeFrame p, msgOut := none } ∧
      (∀ o ∈ os.dropLast, o.wireOut = [] ∧ Event.txSuccess ∉ o.events ∧ Event.collision ∉ o.events) ∧
      ((∀ inp ∈ is, selectInput inp = .command .tick) →
        ∀ o ∈ os.dropLast, o = { ack := true, events := [], wireOut := [], msgOut := none }) ∧
      t.outQ = q ++ acceptedPayloads ((cmdInput .trySend :: is) ++ [cmdInput .tick]) os ∧
      t.gate = .gIdle ∧ t.role = .transmit ∧ t.phaseCnt = s.phaseCnt + s.cfg.senseTicks

/-- 43_scheduler.md R155, R159: a phase that nothing but the timer ends lasts exactly `PHASE_TICKS` ticks. -/
def Obligations.PhaseLastsExactlyPhaseTicks : Prop :=
  ∀ (s : State) (r : ActiveRole), s.Inv → s.role = roleOf r → s.phaseCnt = 0 →
    (∀ n, n < s.cfg.phaseTicks →
      ∃ t os, runInputs (List.replicate n (cmdInput .tick)) s = some (t, os) ∧ t.role = roleOf r ∧ t.phaseCnt = n) ∧
    ∃ t os, runInputs (List.replicate s.cfg.phaseTicks (cmdInput .tick)) s = some (t, os) ∧
      t.role = roleOf (otherRole r) ∧ t.phaseCnt = 0 ∧ t.occ = false

/-- 43_scheduler.md R156, 70_reset_and_hazards.md R233: left alone, a node stays in `Idle` until the
`STARTUP_TICKS`-th tick after reset, which enters the default role. -/
def Obligations.StartupFallbackEntersTheDefaultRole : Prop :=
  ∀ c : Config, c.legal = true →
    (∀ n, n < c.startupTicks →
      ∃ t os, runInputs (List.replicate n (cmdInput .tick)) (State.resetOf c) = some (t, os) ∧ t.role = .idle ∧
        ∀ o ∈ os, o.events = []) ∧
    ∃ t os, runInputs (List.replicate c.startupTicks (cmdInput .tick)) (State.resetOf c) = some (t, os) ∧
      t.role = roleOf c.defaultRole ∧ t.startupCnt = 0 ∧
      os.getLast? = some { ack := true, events := [phaseEvent c.defaultRole], wireOut := [], msgOut := none }

/-- 44_queues.md R176: over any run, resets and illegal words included, the frames put on the wire, followed by those
still queued, are in order a subsequence of the messages queued at the start and those accepted on the way. -/
def Obligations.FramesLeaveInTheOrderAccepted : Prop :=
  ∀ (is : List PortInput) (s t : State) (os : List StepOut), runInputs is s = some (t, os) →
    (framesOf os ++ t.outQ.map encodeFrame).Sublist ((s.outQ ++ acceptedPayloads is os).map encodeFrame)

/-- 41_reassembler.md R118, 10_state.md R24: what an earlier frame or reset left in `rs_len`, `rs_cks` and `rs_buf` is
never observed: two states that agree on all else step alike, to states that again agree, with equal outputs. -/
def Obligations.StaleReassemblyContentsAreNeverObserved : Prop :=
  ∀ s t s' : State, AgreeOnLive s t → step s = .next s' →
    ∃ t', step t = .next t' ∧ AgreeOnLive s' t' ∧ s'.out = t'.out

/-- 45_control.md R187, 10_state.md R42: `SRESET` from any state gives the state of a fresh node, but for what nothing
can observe. -/
def Obligations.SresetEqualsAFreshNode : Prop :=
  ∀ s : State, ∃ t, exec .sreset s = .next t ∧
    AgreeOnLive t { State.resetOf s.cfg with pending := s.pending, msgIn := s.msgIn }

/-! ## Two nodes on one wire -/

/-- 60_exceptions.md R220: a delivery gives the oldest byte under way to the other node as one `RX_BYTE`; a node's own
step puts its bytes behind those under way to the other node, and none of them comes back to it. -/
def Obligations.WireDeliversInOrderWithoutEcho : Prop :=
  (∀ (p q : Pair) (x : Byte) (rest : List Byte), p.toB = x :: rest → pairStep (.deliver .b) p = .next q →
    ∃ t, stepInput (rxInput x) p.b = .next t ∧ q = { a := p.a, b := t, toA := p.toA ++ t.out.wireOut, toB := rest }) ∧
  (∀ (p q : Pair) (x : Byte) (rest : List Byte), p.toA = x :: rest → pairStep (.deliver .a) p = .next q →
    ∃ t, stepInput (rxInput x) p.a = .next t ∧ q = { a := t, b := p.b, toA := rest, toB := p.toB ++ t.out.wireOut }) ∧
  (∀ (p q : Pair) (inp : PortInput), pairStep (.node .a inp) p = .next q →
    ∃ t, stepInput inp p.a = .next t ∧ q = { a := t, b := p.b, toA := p.toA, toB := p.toB ++ t.out.wireOut }) ∧
  (∀ (p q : Pair) (inp : PortInput), pairStep (.node .b inp) p = .next q →
    ∃ t, stepInput inp p.b = .next t ∧ q = { a := p.a, b := t, toA := p.toA ++ t.out.wireOut, toB := p.toB })

/-- 60_exceptions.md R223(a), R220: node A's window ends clear, and the bytes of its frame are delivered one by one to
node B in role `Receive` at the start of a frame. Between the bytes B may take commands of its own that bring no byte and
make no transition. The last byte appends A's message to B's inbound queue, behind what `DEQ_IN` left there. -/
def Obligations.MessageCrossesTheWire : Prop :=
  ∀ (p : Pair) (x : Payload) (q : List Payload) (cs : List PairCmd),
    p.a.Inv → p.b.Inv → p.a.cfg.agree p.b.cfg = true →
    p.a.role = .transmit → p.a.gate = .gSense → p.a.senseCnt + 1 = p.a.cfg.senseTicks →
    p.a.phaseCnt + 1 ≠ p.a.cfg.phaseTicks → p.a.outQ = x :: q → p.toB = [] →
    p.b.role = .receive → p.b.rsPhase = .awaitLengthHigh → p.b.inQ.length < p.b.cfg.queueCap →
    (∀ c ∈ cs, c = .deliver .b ∨ ∃ inp, c = .node .b inp ∧ (selectInput inp).undisturbing = true) →
    cs.count (.deliver .b) = x.length + 2 →
    p.b.phaseCnt + countCommand .tick (nodeInputs .b cs) < p.b.cfg.phaseTicks →
    ∃ r, pairRun ((.node .a (cmdInput .tick) :: cs) ++ [.deliver .b]) p = .next r ∧
      r.a.out.events = [.txSuccess] ∧ r.a.outQ = q ∧ r.toB = [] ∧ r.toA = p.toA ∧
      r.b.inQ = p.b.inQ.drop (countCommand .deqIn (nodeInputs .b cs)) ++ [.payload x] ∧
      r.b.out = { ack := true, events := [], wireOut := [], msgOut := none } ∧ r.b.role = .receive

/-- 60_exceptions.md R223(b): both nodes have a window open; A's ends first and its first byte reaches B inside B's
window: A reports success, B a collision, and B's message is lost with nothing on the wire. -/
def Obligations.FirstWindowWinsTheOtherCollides : Prop :=
  ∀ (p : Pair) (x y : Payload) (qa qb : List Payload), p.a.Inv → p.b.Inv →
    p.a.role = .transmit → p.a.gate = .gSense → p.a.senseCnt + 1 = p.a.cfg.senseTicks →
    p.a.phaseCnt + 1 ≠ p.a.cfg.phaseTicks → p.a.outQ = x :: qa → p.toB = [] →
    p.b.role = .transmit → p.b.gate = .gSense → p.b.outQ = y :: qb →
    ∃ r, pairRun [.node .a (cmdInput .tick), .deliver .b] p = .next r ∧
      r.a.out.events = [.txSuccess] ∧ r.a.outQ = qa ∧ r.toB = (encodeFrame x).tail ∧
      r.b.out.events = [.collision, .phaseRx] ∧ r.b.out.wireOut = [] ∧ r.b.outQ = qb ∧ r.b.role = .receive ∧
      r.b.gate = .gIdle ∧ r.toA = p.toA

/-- 60_exceptions.md R223, R222: if both windows end before either frame is delivered, both nodes report success, and
each then reports a collision on the other's first byte. -/
def Obligations.BothWindowsEndingBothSendThenCollide : Prop :=
  ∀ (p : Pair) (x y : Payload) (qa qb : List Payload), p.a.Inv → p.b.Inv →
    p.a.role = .transmit → p.a.gate = .gSense → p.a.senseCnt + 1 = p.a.cfg.senseTicks →
    p.a.phaseCnt + 1 ≠ p.a.cfg.phaseTicks → p.a.outQ = x :: qa → p.toB = [] →
    p.b.role = .transmit → p.b.gate = .gSense → p.b.senseCnt + 1 = p.b.cfg.senseTicks →
    p.b.phaseCnt + 1 ≠ p.b.cfg.phaseTicks → p.b.outQ = y :: qb → p.toA = [] →
    ∃ m r, pairRun [.node .a (cmdInput .tick), .node .b (cmdInput .tick)] p = .next m ∧
      m.a.out.events = [.txSuccess] ∧ m.b.out.events = [.txSuccess] ∧
      m.toB = encodeFrame x ∧ m.toA = encodeFrame y ∧
      pairRun [.deliver .b, .deliver .a] m = .next r ∧
      r.a.out.events = [.collision, .phaseRx] ∧ r.b.out.events = [.collision, .phaseRx] ∧
      r.a.role = .receive ∧ r.b.role = .receive ∧ r.a.phaseCnt = 0 ∧ r.b.phaseCnt = 0

/-- 43_scheduler.md R164: two nodes with equal `PHASE_TICKS`, equal `phase_cnt` and opposite roles stay so as long as
both are given the same number of ticks and nothing else. -/
def Obligations.OppositeNodesStayOpposite : Prop :=
  ∀ (a b : State) (r : ActiveRole) (n : Nat), a.Inv → b.Inv → a.cfg.phaseTicks = b.cfg.phaseTicks →
    a.phaseCnt = b.phaseCnt → a.role = roleOf r → b.role = roleOf (otherRole r) →
    ∃ a' b' oa ob r', runInputs (List.replicate n (cmdInput .tick)) a = some (a', oa) ∧
      runInputs (List.replicate n (cmdInput .tick)) b = some (b', ob) ∧
      a'.role = roleOf r' ∧ b'.role = roleOf (otherRole r') ∧ a'.phaseCnt = b'.phaseCnt

/-! ## Codes -/

/-- 30_encoding.md R84, R87, R82, 10_state.md R29: the code of every event, and the port shows no other; the encodings of
`rs_phase`, `role` and `gate`; the status outputs; the worker enables, at most one of them 1. -/
def Obligations.CodesAndStatusOutputsFollowTheTables : Prop :=
  (∀ e : Event, e.code = match e with
    | .txSuccess => 0x01#8
    | .collision => 0x02#8
    | .checksumError => 0x03#8
    | .phaseTx => 0x04#8
    | .phaseRx => 0x05#8
    | .queueFullOut => 0x06#8
    | .queueFullIn => 0x07#8
    | .oversizePayload => 0x08#8
    | .illegalCommand => 0x09#8) ∧
  (∀ e f : Event, e.code = f.code → e = f) ∧
  (∀ o : StepOut, o.eventCodes.length = o.events.length ∧
    (∀ n : Nat, o.eventCodes[n]? = (o.events[n]?).map Event.code) ∧
    ∀ c ∈ o.eventCodes, 1 ≤ c.toNat ∧ c.toNat ≤ 9) ∧
  (RsPhase.awaitLengthHigh.code = 0#2 ∧ RsPhase.awaitLengthLow.code = 1#2 ∧ RsPhase.awaitChecksum.code = 2#2 ∧
    RsPhase.awaitPayload.code = 3#2) ∧
  (Role.idle.code = 0#2 ∧ Role.transmit.code = 1#2 ∧ Role.receive.code = 2#2) ∧
  (Gate.gIdle.code = 0#1 ∧ Gate.gSense.code = 1#1) ∧
  (∀ s : State,
    (s.stRole = 0#2 ↔ s.role = .idle) ∧ (s.stRole = 1#2 ↔ s.role = .transmit) ∧ (s.stRole = 2#2 ↔ s.role = .receive) ∧
    s.stRole ≠ 3#2 ∧ (s.stOcc = 1#1 ↔ s.occ = true) ∧ (s.stOcc = 0#1 ↔ s.occ = false)) ∧
  (∀ s : State,
    (s.txEn = true ↔ s.role = .transmit) ∧ (s.rxEn = true ↔ s.role = .receive) ∧ ¬ (s.txEn = true ∧ s.rxEn = true))
end

