-- ==== Sys2Proof/Laws/State.lean ====
section
/-! SUPPORT. What each plain write of a state element leaves in each field: one lemma per field per write, so that no
later proof unfolds a record update. Each is true by rfl; the brackets around rfl make simp rewrite with it as with any
equation, so that a decidable test that mentions the field is carried along. -/

namespace Sys2Proof.Machine

@[simp] theorem State.beginStep_rsPhase (s : State) : s.beginStep.rsPhase = s.rsPhase := (rfl)
@[simp] theorem State.beginStep_rsLen (s : State) : s.beginStep.rsLen = s.rsLen := (rfl)
@[simp] theorem State.beginStep_rsCks (s : State) : s.beginStep.rsCks = s.rsCks := (rfl)
@[simp] theorem State.beginStep_rsBuf (s : State) : s.beginStep.rsBuf = s.rsBuf := (rfl)
@[simp] theorem State.beginStep_rsPos (s : State) : s.beginStep.rsPos = s.rsPos := (rfl)
@[simp] theorem State.beginStep_occ (s : State) : s.beginStep.occ = s.occ := (rfl)
@[simp] theorem State.beginStep_role (s : State) : s.beginStep.role = s.role := (rfl)
@[simp] theorem State.beginStep_phaseCnt (s : State) : s.beginStep.phaseCnt = s.phaseCnt := (rfl)
@[simp] theorem State.beginStep_startupCnt (s : State) : s.beginStep.startupCnt = s.startupCnt := (rfl)
@[simp] theorem State.beginStep_gate (s : State) : s.beginStep.gate = s.gate := (rfl)
@[simp] theorem State.beginStep_senseCnt (s : State) : s.beginStep.senseCnt = s.senseCnt := (rfl)
@[simp] theorem State.beginStep_outQ (s : State) : s.beginStep.outQ = s.outQ := (rfl)
@[simp] theorem State.beginStep_inQ (s : State) : s.beginStep.inQ = s.inQ := (rfl)
@[simp] theorem State.beginStep_cfg (s : State) : s.beginStep.cfg = s.cfg := (rfl)
@[simp] theorem State.beginStep_pending (s : State) : s.beginStep.pending = s.pending := (rfl)
@[simp] theorem State.beginStep_msgIn (s : State) : s.beginStep.msgIn = s.msgIn := (rfl)
@[simp] theorem State.beginStep_out (s : State) : s.beginStep.out = StepOut.quiet := (rfl)
@[simp] theorem State.beginStep_bufEpoch (s : State) : s.beginStep.bufEpoch = s.bufEpoch := (rfl)

@[simp] theorem State.emit_rsPhase (e : Event) (s : State) : (s.emit e).rsPhase = s.rsPhase := (rfl)
@[simp] theorem State.emit_rsLen (e : Event) (s : State) : (s.emit e).rsLen = s.rsLen := (rfl)
@[simp] theorem State.emit_rsCks (e : Event) (s : State) : (s.emit e).rsCks = s.rsCks := (rfl)
@[simp] theorem State.emit_rsBuf (e : Event) (s : State) : (s.emit e).rsBuf = s.rsBuf := (rfl)
@[simp] theorem State.emit_rsPos (e : Event) (s : State) : (s.emit e).rsPos = s.rsPos := (rfl)
@[simp] theorem State.emit_occ (e : Event) (s : State) : (s.emit e).occ = s.occ := (rfl)
@[simp] theorem State.emit_role (e : Event) (s : State) : (s.emit e).role = s.role := (rfl)
@[simp] theorem State.emit_phaseCnt (e : Event) (s : State) : (s.emit e).phaseCnt = s.phaseCnt := (rfl)
@[simp] theorem State.emit_startupCnt (e : Event) (s : State) : (s.emit e).startupCnt = s.startupCnt := (rfl)
@[simp] theorem State.emit_gate (e : Event) (s : State) : (s.emit e).gate = s.gate := (rfl)
@[simp] theorem State.emit_senseCnt (e : Event) (s : State) : (s.emit e).senseCnt = s.senseCnt := (rfl)
@[simp] theorem State.emit_outQ (e : Event) (s : State) : (s.emit e).outQ = s.outQ := (rfl)
@[simp] theorem State.emit_inQ (e : Event) (s : State) : (s.emit e).inQ = s.inQ := (rfl)
@[simp] theorem State.emit_cfg (e : Event) (s : State) : (s.emit e).cfg = s.cfg := (rfl)
@[simp] theorem State.emit_pending (e : Event) (s : State) : (s.emit e).pending = s.pending := (rfl)
@[simp] theorem State.emit_msgIn (e : Event) (s : State) : (s.emit e).msgIn = s.msgIn := (rfl)
@[simp] theorem State.emit_out (e : Event) (s : State) : (s.emit e).out = { s.out with events := s.out.events ++ [e] } := (rfl)
@[simp] theorem State.emit_bufEpoch (e : Event) (s : State) : (s.emit e).bufEpoch = s.bufEpoch := (rfl)

@[simp] theorem State.nack_rsPhase (s : State) : s.nack.rsPhase = s.rsPhase := (rfl)
@[simp] theorem State.nack_rsLen (s : State) : s.nack.rsLen = s.rsLen := (rfl)
@[simp] theorem State.nack_rsCks (s : State) : s.nack.rsCks = s.rsCks := (rfl)
@[simp] theorem State.nack_rsBuf (s : State) : s.nack.rsBuf = s.rsBuf := (rfl)
@[simp] theorem State.nack_rsPos (s : State) : s.nack.rsPos = s.rsPos := (rfl)
@[simp] theorem State.nack_occ (s : State) : s.nack.occ = s.occ := (rfl)
@[simp] theorem State.nack_role (s : State) : s.nack.role = s.role := (rfl)
@[simp] theorem State.nack_phaseCnt (s : State) : s.nack.phaseCnt = s.phaseCnt := (rfl)
@[simp] theorem State.nack_startupCnt (s : State) : s.nack.startupCnt = s.startupCnt := (rfl)
@[simp] theorem State.nack_gate (s : State) : s.nack.gate = s.gate := (rfl)
@[simp] theorem State.nack_senseCnt (s : State) : s.nack.senseCnt = s.senseCnt := (rfl)
@[simp] theorem State.nack_outQ (s : State) : s.nack.outQ = s.outQ := (rfl)
@[simp] theorem State.nack_inQ (s : State) : s.nack.inQ = s.inQ := (rfl)
@[simp] theorem State.nack_cfg (s : State) : s.nack.cfg = s.cfg := (rfl)
@[simp] theorem State.nack_pending (s : State) : s.nack.pending = s.pending := (rfl)
@[simp] theorem State.nack_msgIn (s : State) : s.nack.msgIn = s.msgIn := (rfl)
@[simp] theorem State.nack_out (s : State) : s.nack.out = { s.out with ack := false } := (rfl)
@[simp] theorem State.nack_bufEpoch (s : State) : s.nack.bufEpoch = s.bufEpoch := (rfl)

@[simp] theorem State.putWire_rsPhase (bs : List Byte) (s : State) : (s.putWire bs).rsPhase = s.rsPhase := (rfl)
@[simp] theorem State.putWire_rsLen (bs : List Byte) (s : State) : (s.putWire bs).rsLen = s.rsLen := (rfl)
@[simp] theorem State.putWire_rsCks (bs : List Byte) (s : State) : (s.putWire bs).rsCks = s.rsCks := (rfl)
@[simp] theorem State.putWire_rsBuf (bs : List Byte) (s : State) : (s.putWire bs).rsBuf = s.rsBuf := (rfl)
@[simp] theorem State.putWire_rsPos (bs : List Byte) (s : State) : (s.putWire bs).rsPos = s.rsPos := (rfl)
@[simp] theorem State.putWire_occ (bs : List Byte) (s : State) : (s.putWire bs).occ = s.occ := (rfl)
@[simp] theorem State.putWire_role (bs : List Byte) (s : State) : (s.putWire bs).role = s.role := (rfl)
@[simp] theorem State.putWire_phaseCnt (bs : List Byte) (s : State) : (s.putWire bs).phaseCnt = s.phaseCnt := (rfl)
@[simp] theorem State.putWire_startupCnt (bs : List Byte) (s : State) : (s.putWire bs).startupCnt = s.startupCnt := (rfl)
@[simp] theorem State.putWire_gate (bs : List Byte) (s : State) : (s.putWire bs).gate = s.gate := (rfl)
@[simp] theorem State.putWire_senseCnt (bs : List Byte) (s : State) : (s.putWire bs).senseCnt = s.senseCnt := (rfl)
@[simp] theorem State.putWire_outQ (bs : List Byte) (s : State) : (s.putWire bs).outQ = s.outQ := (rfl)
@[simp] theorem State.putWire_inQ (bs : List Byte) (s : State) : (s.putWire bs).inQ = s.inQ := (rfl)
@[simp] theorem State.putWire_cfg (bs : List Byte) (s : State) : (s.putWire bs).cfg = s.cfg := (rfl)
@[simp] theorem State.putWire_pending (bs : List Byte) (s : State) : (s.putWire bs).pending = s.pending := (rfl)
@[simp] theorem State.putWire_msgIn (bs : List Byte) (s : State) : (s.putWire bs).msgIn = s.msgIn := (rfl)
@[simp] theorem State.putWire_out (bs : List Byte) (s : State) : (s.putWire bs).out = { s.out with wireOut := bs } := (rfl)
@[simp] theorem State.putWire_bufEpoch (bs : List Byte) (s : State) : (s.putWire bs).bufEpoch = s.bufEpoch := (rfl)

@[simp] theorem State.putMsg_rsPhase (x : InItem) (s : State) : (s.putMsg x).rsPhase = s.rsPhase := (rfl)
@[simp] theorem State.putMsg_rsLen (x : InItem) (s : State) : (s.putMsg x).rsLen = s.rsLen := (rfl)
@[simp] theorem State.putMsg_rsCks (x : InItem) (s : State) : (s.putMsg x).rsCks = s.rsCks := (rfl)
@[simp] theorem State.putMsg_rsBuf (x : InItem) (s : State) : (s.putMsg x).rsBuf = s.rsBuf := (rfl)
@[simp] theorem State.putMsg_rsPos (x : InItem) (s : State) : (s.putMsg x).rsPos = s.rsPos := (rfl)
@[simp] theorem State.putMsg_occ (x : InItem) (s : State) : (s.putMsg x).occ = s.occ := (rfl)
@[simp] theorem State.putMsg_role (x : InItem) (s : State) : (s.putMsg x).role = s.role := (rfl)
@[simp] theorem State.putMsg_phaseCnt (x : InItem) (s : State) : (s.putMsg x).phaseCnt = s.phaseCnt := (rfl)
@[simp] theorem State.putMsg_startupCnt (x : InItem) (s : State) : (s.putMsg x).startupCnt = s.startupCnt := (rfl)
@[simp] theorem State.putMsg_gate (x : InItem) (s : State) : (s.putMsg x).gate = s.gate := (rfl)
@[simp] theorem State.putMsg_senseCnt (x : InItem) (s : State) : (s.putMsg x).senseCnt = s.senseCnt := (rfl)
@[simp] theorem State.putMsg_outQ (x : InItem) (s : State) : (s.putMsg x).outQ = s.outQ := (rfl)
@[simp] theorem State.putMsg_inQ (x : InItem) (s : State) : (s.putMsg x).inQ = s.inQ := (rfl)
@[simp] theorem State.putMsg_cfg (x : InItem) (s : State) : (s.putMsg x).cfg = s.cfg := (rfl)
@[simp] theorem State.putMsg_pending (x : InItem) (s : State) : (s.putMsg x).pending = s.pending := (rfl)
@[simp] theorem State.putMsg_msgIn (x : InItem) (s : State) : (s.putMsg x).msgIn = s.msgIn := (rfl)
@[simp] theorem State.putMsg_out (x : InItem) (s : State) : (s.putMsg x).out = { s.out with msgOut := some x } := (rfl)
@[simp] theorem State.putMsg_bufEpoch (x : InItem) (s : State) : (s.putMsg x).bufEpoch = s.bufEpoch := (rfl)

@[simp] theorem State.setCursor_rsPhase (ph : RsPhase) (pos : Half) (s : State) : (s.setCursor ph pos).rsPhase = ph := (rfl)
@[simp] theorem State.setCursor_rsLen (ph : RsPhase) (pos : Half) (s : State) : (s.setCursor ph pos).rsLen = s.rsLen := (rfl)
@[simp] theorem State.setCursor_rsCks (ph : RsPhase) (pos : Half) (s : State) : (s.setCursor ph pos).rsCks = s.rsCks := (rfl)
@[simp] theorem State.setCursor_rsBuf (ph : RsPhase) (pos : Half) (s : State) : (s.setCursor ph pos).rsBuf = s.rsBuf := (rfl)
@[simp] theorem State.setCursor_rsPos (ph : RsPhase) (pos : Half) (s : State) : (s.setCursor ph pos).rsPos = pos := (rfl)
@[simp] theorem State.setCursor_occ (ph : RsPhase) (pos : Half) (s : State) : (s.setCursor ph pos).occ = s.occ := (rfl)
@[simp] theorem State.setCursor_role (ph : RsPhase) (pos : Half) (s : State) : (s.setCursor ph pos).role = s.role := (rfl)
@[simp] theorem State.setCursor_phaseCnt (ph : RsPhase) (pos : Half) (s : State) : (s.setCursor ph pos).phaseCnt = s.phaseCnt := (rfl)
@[simp] theorem State.setCursor_startupCnt (ph : RsPhase) (pos : Half) (s : State) : (s.setCursor ph pos).startupCnt = s.startupCnt := (rfl)
@[simp] theorem State.setCursor_gate (ph : RsPhase) (pos : Half) (s : State) : (s.setCursor ph pos).gate = s.gate := (rfl)
@[simp] theorem State.setCursor_senseCnt (ph : RsPhase) (pos : Half) (s : State) : (s.setCursor ph pos).senseCnt = s.senseCnt := (rfl)
@[simp] theorem State.setCursor_outQ (ph : RsPhase) (pos : Half) (s : State) : (s.setCursor ph pos).outQ = s.outQ := (rfl)
@[simp] theorem State.setCursor_inQ (ph : RsPhase) (pos : Half) (s : State) : (s.setCursor ph pos).inQ = s.inQ := (rfl)
@[simp] theorem State.setCursor_cfg (ph : RsPhase) (pos : Half) (s : State) : (s.setCursor ph pos).cfg = s.cfg := (rfl)
@[simp] theorem State.setCursor_pending (ph : RsPhase) (pos : Half) (s : State) : (s.setCursor ph pos).pending = s.pending := (rfl)
@[simp] theorem State.setCursor_msgIn (ph : RsPhase) (pos : Half) (s : State) : (s.setCursor ph pos).msgIn = s.msgIn := (rfl)
@[simp] theorem State.setCursor_out (ph : RsPhase) (pos : Half) (s : State) : (s.setCursor ph pos).out = s.out := (rfl)
@[simp] theorem State.setCursor_bufEpoch (ph : RsPhase) (pos : Half) (s : State) : (s.setCursor ph pos).bufEpoch = s.bufEpoch := (rfl)

@[simp] theorem State.setLen_rsPhase (v : Half) (s : State) : (s.setLen v).rsPhase = s.rsPhase := (rfl)
@[simp] theorem State.setLen_rsLen (v : Half) (s : State) : (s.setLen v).rsLen = v := (rfl)
@[simp] theorem State.setLen_rsCks (v : Half) (s : State) : (s.setLen v).rsCks = s.rsCks := (rfl)
@[simp] theorem State.setLen_rsBuf (v : Half) (s : State) : (s.setLen v).rsBuf = s.rsBuf := (rfl)
@[simp] theorem State.setLen_rsPos (v : Half) (s : State) : (s.setLen v).rsPos = s.rsPos := (rfl)
@[simp] theorem State.setLen_occ (v : Half) (s : State) : (s.setLen v).occ = s.occ := (rfl)
@[simp] theorem State.setLen_role (v : Half) (s : State) : (s.setLen v).role = s.role := (rfl)
@[simp] theorem State.setLen_phaseCnt (v : Half) (s : State) : (s.setLen v).phaseCnt = s.phaseCnt := (rfl)
@[simp] theorem State.setLen_startupCnt (v : Half) (s : State) : (s.setLen v).startupCnt = s.startupCnt := (rfl)
@[simp] theorem State.setLen_gate (v : Half) (s : State) : (s.setLen v).gate = s.gate := (rfl)
@[simp] theorem State.setLen_senseCnt (v : Half) (s : State) : (s.setLen v).senseCnt = s.senseCnt := (rfl)
@[simp] theorem State.setLen_outQ (v : Half) (s : State) : (s.setLen v).outQ = s.outQ := (rfl)
@[simp] theorem State.setLen_inQ (v : Half) (s : State) : (s.setLen v).inQ = s.inQ := (rfl)
@[simp] theorem State.setLen_cfg (v : Half) (s : State) : (s.setLen v).cfg = s.cfg := (rfl)
@[simp] theorem State.setLen_pending (v : Half) (s : State) : (s.setLen v).pending = s.pending := (rfl)
@[simp] theorem State.setLen_msgIn (v : Half) (s : State) : (s.setLen v).msgIn = s.msgIn := (rfl)
@[simp] theorem State.setLen_out (v : Half) (s : State) : (s.setLen v).out = s.out := (rfl)
@[simp] theorem State.setLen_bufEpoch (v : Half) (s : State) : (s.setLen v).bufEpoch = s.bufEpoch := (rfl)

@[simp] theorem State.setCks_rsPhase (v : Byte) (s : State) : (s.setCks v).rsPhase = s.rsPhase := (rfl)
@[simp] theorem State.setCks_rsLen (v : Byte) (s : State) : (s.setCks v).rsLen = s.rsLen := (rfl)
@[simp] theorem State.setCks_rsCks (v : Byte) (s : State) : (s.setCks v).rsCks = v := (rfl)
@[simp] theorem State.setCks_rsBuf (v : Byte) (s : State) : (s.setCks v).rsBuf = s.rsBuf := (rfl)
@[simp] theorem State.setCks_rsPos (v : Byte) (s : State) : (s.setCks v).rsPos = s.rsPos := (rfl)
@[simp] theorem State.setCks_occ (v : Byte) (s : State) : (s.setCks v).occ = s.occ := (rfl)
@[simp] theorem State.setCks_role (v : Byte) (s : State) : (s.setCks v).role = s.role := (rfl)
@[simp] theorem State.setCks_phaseCnt (v : Byte) (s : State) : (s.setCks v).phaseCnt = s.phaseCnt := (rfl)
@[simp] theorem State.setCks_startupCnt (v : Byte) (s : State) : (s.setCks v).startupCnt = s.startupCnt := (rfl)
@[simp] theorem State.setCks_gate (v : Byte) (s : State) : (s.setCks v).gate = s.gate := (rfl)
@[simp] theorem State.setCks_senseCnt (v : Byte) (s : State) : (s.setCks v).senseCnt = s.senseCnt := (rfl)
@[simp] theorem State.setCks_outQ (v : Byte) (s : State) : (s.setCks v).outQ = s.outQ := (rfl)
@[simp] theorem State.setCks_inQ (v : Byte) (s : State) : (s.setCks v).inQ = s.inQ := (rfl)
@[simp] theorem State.setCks_cfg (v : Byte) (s : State) : (s.setCks v).cfg = s.cfg := (rfl)
@[simp] theorem State.setCks_pending (v : Byte) (s : State) : (s.setCks v).pending = s.pending := (rfl)
@[simp] theorem State.setCks_msgIn (v : Byte) (s : State) : (s.setCks v).msgIn = s.msgIn := (rfl)
@[simp] theorem State.setCks_out (v : Byte) (s : State) : (s.setCks v).out = s.out := (rfl)
@[simp] theorem State.setCks_bufEpoch (v : Byte) (s : State) : (s.setCks v).bufEpoch = s.bufEpoch := (rfl)

@[simp] theorem State.setOcc_rsPhase (v : Bool) (s : State) : (s.setOcc v).rsPhase = s.rsPhase := (rfl)
@[simp] theorem State.setOcc_rsLen (v : Bool) (s : State) : (s.setOcc v).rsLen = s.rsLen := (rfl)
@[simp] theorem State.setOcc_rsCks (v : Bool) (s : State) : (s.setOcc v).rsCks = s.rsCks := (rfl)
@[simp] theorem State.setOcc_rsBuf (v : Bool) (s : State) : (s.setOcc v).rsBuf = s.rsBuf := (rfl)
@[simp] theorem State.setOcc_rsPos (v : Bool) (s : State) : (s.setOcc v).rsPos = s.rsPos := (rfl)
@[simp] theorem State.setOcc_occ (v : Bool) (s : State) : (s.setOcc v).occ = v := (rfl)
@[simp] theorem State.setOcc_role (v : Bool) (s : State) : (s.setOcc v).role = s.role := (rfl)
@[simp] theorem State.setOcc_phaseCnt (v : Bool) (s : State) : (s.setOcc v).phaseCnt = s.phaseCnt := (rfl)
@[simp] theorem State.setOcc_startupCnt (v : Bool) (s : State) : (s.setOcc v).startupCnt = s.startupCnt := (rfl)
@[simp] theorem State.setOcc_gate (v : Bool) (s : State) : (s.setOcc v).gate = s.gate := (rfl)
@[simp] theorem State.setOcc_senseCnt (v : Bool) (s : State) : (s.setOcc v).senseCnt = s.senseCnt := (rfl)
@[simp] theorem State.setOcc_outQ (v : Bool) (s : State) : (s.setOcc v).outQ = s.outQ := (rfl)
@[simp] theorem State.setOcc_inQ (v : Bool) (s : State) : (s.setOcc v).inQ = s.inQ := (rfl)
@[simp] theorem State.setOcc_cfg (v : Bool) (s : State) : (s.setOcc v).cfg = s.cfg := (rfl)
@[simp] theorem State.setOcc_pending (v : Bool) (s : State) : (s.setOcc v).pending = s.pending := (rfl)
@[simp] theorem State.setOcc_msgIn (v : Bool) (s : State) : (s.setOcc v).msgIn = s.msgIn := (rfl)
@[simp] theorem State.setOcc_out (v : Bool) (s : State) : (s.setOcc v).out = s.out := (rfl)
@[simp] theorem State.setOcc_bufEpoch (v : Bool) (s : State) : (s.setOcc v).bufEpoch = s.bufEpoch := (rfl)

@[simp] theorem State.setGate_rsPhase (g : Gate) (n : Nat) (s : State) : (s.setGate g n).rsPhase = s.rsPhase := (rfl)
@[simp] theorem State.setGate_rsLen (g : Gate) (n : Nat) (s : State) : (s.setGate g n).rsLen = s.rsLen := (rfl)
@[simp] theorem State.setGate_rsCks (g : Gate) (n : Nat) (s : State) : (s.setGate g n).rsCks = s.rsCks := (rfl)
@[simp] theorem State.setGate_rsBuf (g : Gate) (n : Nat) (s : State) : (s.setGate g n).rsBuf = s.rsBuf := (rfl)
@[simp] theorem State.setGate_rsPos (g : Gate) (n : Nat) (s : State) : (s.setGate g n).rsPos = s.rsPos := (rfl)
@[simp] theorem State.setGate_occ (g : Gate) (n : Nat) (s : State) : (s.setGate g n).occ = s.occ := (rfl)
@[simp] theorem State.setGate_role (g : Gate) (n : Nat) (s : State) : (s.setGate g n).role = s.role := (rfl)
@[simp] theorem State.setGate_phaseCnt (g : Gate) (n : Nat) (s : State) : (s.setGate g n).phaseCnt = s.phaseCnt := (rfl)
@[simp] theorem State.setGate_startupCnt (g : Gate) (n : Nat) (s : State) : (s.setGate g n).startupCnt = s.startupCnt := (rfl)
@[simp] theorem State.setGate_gate (g : Gate) (n : Nat) (s : State) : (s.setGate g n).gate = g := (rfl)
@[simp] theorem State.setGate_senseCnt (g : Gate) (n : Nat) (s : State) : (s.setGate g n).senseCnt = n := (rfl)
@[simp] theorem State.setGate_outQ (g : Gate) (n : Nat) (s : State) : (s.setGate g n).outQ = s.outQ := (rfl)
@[simp] theorem State.setGate_inQ (g : Gate) (n : Nat) (s : State) : (s.setGate g n).inQ = s.inQ := (rfl)
@[simp] theorem State.setGate_cfg (g : Gate) (n : Nat) (s : State) : (s.setGate g n).cfg = s.cfg := (rfl)
@[simp] theorem State.setGate_pending (g : Gate) (n : Nat) (s : State) : (s.setGate g n).pending = s.pending := (rfl)
@[simp] theorem State.setGate_msgIn (g : Gate) (n : Nat) (s : State) : (s.setGate g n).msgIn = s.msgIn := (rfl)
@[simp] theorem State.setGate_out (g : Gate) (n : Nat) (s : State) : (s.setGate g n).out = s.out := (rfl)
@[simp] theorem State.setGate_bufEpoch (g : Gate) (n : Nat) (s : State) : (s.setGate g n).bufEpoch = s.bufEpoch := (rfl)

@[simp] theorem State.setPhaseCnt_rsPhase (n : Nat) (s : State) : (s.setPhaseCnt n).rsPhase = s.rsPhase := (rfl)
@[simp] theorem State.setPhaseCnt_rsLen (n : Nat) (s : State) : (s.setPhaseCnt n).rsLen = s.rsLen := (rfl)
@[simp] theorem State.setPhaseCnt_rsCks (n : Nat) (s : State) : (s.setPhaseCnt n).rsCks = s.rsCks := (rfl)
@[simp] theorem State.setPhaseCnt_rsBuf (n : Nat) (s : State) : (s.setPhaseCnt n).rsBuf = s.rsBuf := (rfl)
@[simp] theorem State.setPhaseCnt_rsPos (n : Nat) (s : State) : (s.setPhaseCnt n).rsPos = s.rsPos := (rfl)
@[simp] theorem State.setPhaseCnt_occ (n : Nat) (s : State) : (s.setPhaseCnt n).occ = s.occ := (rfl)
@[simp] theorem State.setPhaseCnt_role (n : Nat) (s : State) : (s.setPhaseCnt n).role = s.role := (rfl)
@[simp] theorem State.setPhaseCnt_phaseCnt (n : Nat) (s : State) : (s.setPhaseCnt n).phaseCnt = n := (rfl)
@[simp] theorem State.setPhaseCnt_startupCnt (n : Nat) (s : State) : (s.setPhaseCnt n).startupCnt = s.startupCnt := (rfl)
@[simp] theorem State.setPhaseCnt_gate (n : Nat) (s : State) : (s.setPhaseCnt n).gate = s.gate := (rfl)
@[simp] theorem State.setPhaseCnt_senseCnt (n : Nat) (s : State) : (s.setPhaseCnt n).senseCnt = s.senseCnt := (rfl)
@[simp] theorem State.setPhaseCnt_outQ (n : Nat) (s : State) : (s.setPhaseCnt n).outQ = s.outQ := (rfl)
@[simp] theorem State.setPhaseCnt_inQ (n : Nat) (s : State) : (s.setPhaseCnt n).inQ = s.inQ := (rfl)
@[simp] theorem State.setPhaseCnt_cfg (n : Nat) (s : State) : (s.setPhaseCnt n).cfg = s.cfg := (rfl)
@[simp] theorem State.setPhaseCnt_pending (n : Nat) (s : State) : (s.setPhaseCnt n).pending = s.pending := (rfl)
@[simp] theorem State.setPhaseCnt_msgIn (n : Nat) (s : State) : (s.setPhaseCnt n).msgIn = s.msgIn := (rfl)
@[simp] theorem State.setPhaseCnt_out (n : Nat) (s : State) : (s.setPhaseCnt n).out = s.out := (rfl)
@[simp] theorem State.setPhaseCnt_bufEpoch (n : Nat) (s : State) : (s.setPhaseCnt n).bufEpoch = s.bufEpoch := (rfl)

@[simp] theorem State.setStartupCnt_rsPhase (n : Nat) (s : State) : (s.setStartupCnt n).rsPhase = s.rsPhase := (rfl)
@[simp] theorem State.setStartupCnt_rsLen (n : Nat) (s : State) : (s.setStartupCnt n).rsLen = s.rsLen := (rfl)
@[simp] theorem State.setStartupCnt_rsCks (n : Nat) (s : State) : (s.setStartupCnt n).rsCks = s.rsCks := (rfl)
@[simp] theorem State.setStartupCnt_rsBuf (n : Nat) (s : State) : (s.setStartupCnt n).rsBuf = s.rsBuf := (rfl)
@[simp] theorem State.setStartupCnt_rsPos (n : Nat) (s : State) : (s.setStartupCnt n).rsPos = s.rsPos := (rfl)
@[simp] theorem State.setStartupCnt_occ (n : Nat) (s : State) : (s.setStartupCnt n).occ = s.occ := (rfl)
@[simp] theorem State.setStartupCnt_role (n : Nat) (s : State) : (s.setStartupCnt n).role = s.role := (rfl)
@[simp] theorem State.setStartupCnt_phaseCnt (n : Nat) (s : State) : (s.setStartupCnt n).phaseCnt = s.phaseCnt := (rfl)
@[simp] theorem State.setStartupCnt_startupCnt (n : Nat) (s : State) : (s.setStartupCnt n).startupCnt = n := (rfl)
@[simp] theorem State.setStartupCnt_gate (n : Nat) (s : State) : (s.setStartupCnt n).gate = s.gate := (rfl)
@[simp] theorem State.setStartupCnt_senseCnt (n : Nat) (s : State) : (s.setStartupCnt n).senseCnt = s.senseCnt := (rfl)
@[simp] theorem State.setStartupCnt_outQ (n : Nat) (s : State) : (s.setStartupCnt n).outQ = s.outQ := (rfl)
@[simp] theorem State.setStartupCnt_inQ (n : Nat) (s : State) : (s.setStartupCnt n).inQ = s.inQ := (rfl)
@[simp] theorem State.setStartupCnt_cfg (n : Nat) (s : State) : (s.setStartupCnt n).cfg = s.cfg := (rfl)
@[simp] theorem State.setStartupCnt_pending (n : Nat) (s : State) : (s.setStartupCnt n).pending = s.pending := (rfl)
@[simp] theorem State.setStartupCnt_msgIn (n : Nat) (s : State) : (s.setStartupCnt n).msgIn = s.msgIn := (rfl)
@[simp] theorem State.setStartupCnt_out (n : Nat) (s : State) : (s.setStartupCnt n).out = s.out := (rfl)
@[simp] theorem State.setStartupCnt_bufEpoch (n : Nat) (s : State) : (s.setStartupCnt n).bufEpoch = s.bufEpoch := (rfl)

@[simp] theorem State.enterRole_rsPhase (r : ActiveRole) (s : State) : (s.enterRole r).rsPhase = s.rsPhase := (rfl)
@[simp] theorem State.enterRole_rsLen (r : ActiveRole) (s : State) : (s.enterRole r).rsLen = s.rsLen := (rfl)
@[simp] theorem State.enterRole_rsCks (r : ActiveRole) (s : State) : (s.enterRole r).rsCks = s.rsCks := (rfl)
@[simp] theorem State.enterRole_rsBuf (r : ActiveRole) (s : State) : (s.enterRole r).rsBuf = s.rsBuf := (rfl)
@[simp] theorem State.enterRole_rsPos (r : ActiveRole) (s : State) : (s.enterRole r).rsPos = s.rsPos := (rfl)
@[simp] theorem State.enterRole_occ (r : ActiveRole) (s : State) : (s.enterRole r).occ = s.occ := (rfl)
@[simp] theorem State.enterRole_role (r : ActiveRole) (s : State) : (s.enterRole r).role = roleOf r := (rfl)
@[simp] theorem State.enterRole_phaseCnt (r : ActiveRole) (s : State) : (s.enterRole r).phaseCnt = 0 := (rfl)
@[simp] theorem State.enterRole_startupCnt (r : ActiveRole) (s : State) : (s.enterRole r).startupCnt = 0 := (rfl)
@[simp] theorem State.enterRole_gate (r : ActiveRole) (s : State) : (s.enterRole r).gate = s.gate := (rfl)
@[simp] theorem State.enterRole_senseCnt (r : ActiveRole) (s : State) : (s.enterRole r).senseCnt = s.senseCnt := (rfl)
@[simp] theorem State.enterRole_outQ (r : ActiveRole) (s : State) : (s.enterRole r).outQ = s.outQ := (rfl)
@[simp] theorem State.enterRole_inQ (r : ActiveRole) (s : State) : (s.enterRole r).inQ = s.inQ := (rfl)
@[simp] theorem State.enterRole_cfg (r : ActiveRole) (s : State) : (s.enterRole r).cfg = s.cfg := (rfl)
@[simp] theorem State.enterRole_pending (r : ActiveRole) (s : State) : (s.enterRole r).pending = s.pending := (rfl)
@[simp] theorem State.enterRole_msgIn (r : ActiveRole) (s : State) : (s.enterRole r).msgIn = s.msgIn := (rfl)
@[simp] theorem State.enterRole_out (r : ActiveRole) (s : State) : (s.enterRole r).out = s.out := (rfl)
@[simp] theorem State.enterRole_bufEpoch (r : ActiveRole) (s : State) : (s.enterRole r).bufEpoch = s.bufEpoch := (rfl)

@[simp] theorem State.setOutQ_rsPhase (q : List Payload) (s : State) : (s.setOutQ q).rsPhase = s.rsPhase := (rfl)
@[simp] theorem State.setOutQ_rsLen (q : List Payload) (s : State) : (s.setOutQ q).rsLen = s.rsLen := (rfl)
@[simp] theorem State.setOutQ_rsCks (q : List Payload) (s : State) : (s.setOutQ q).rsCks = s.rsCks := (rfl)
@[simp] theorem State.setOutQ_rsBuf (q : List Payload) (s : State) : (s.setOutQ q).rsBuf = s.rsBuf := (rfl)
@[simp] theorem State.setOutQ_rsPos (q : List Payload) (s : State) : (s.setOutQ q).rsPos = s.rsPos := (rfl)
@[simp] theorem State.setOutQ_occ (q : List Payload) (s : State) : (s.setOutQ q).occ = s.occ := (rfl)
@[simp] theorem State.setOutQ_role (q : List Payload) (s : State) : (s.setOutQ q).role = s.role := (rfl)
@[simp] theorem State.setOutQ_phaseCnt (q : List Payload) (s : State) : (s.setOutQ q).phaseCnt = s.phaseCnt := (rfl)
@[simp] theorem State.setOutQ_startupCnt (q : List Payload) (s : State) : (s.setOutQ q).startupCnt = s.startupCnt := (rfl)
@[simp] theorem State.setOutQ_gate (q : List Payload) (s : State) : (s.setOutQ q).gate = s.gate := (rfl)
@[simp] theorem State.setOutQ_senseCnt (q : List Payload) (s : State) : (s.setOutQ q).senseCnt = s.senseCnt := (rfl)
@[simp] theorem State.setOutQ_outQ (q : List Payload) (s : State) : (s.setOutQ q).outQ = q := (rfl)
@[simp] theorem State.setOutQ_inQ (q : List Payload) (s : State) : (s.setOutQ q).inQ = s.inQ := (rfl)
@[simp] theorem State.setOutQ_cfg (q : List Payload) (s : State) : (s.setOutQ q).cfg = s.cfg := (rfl)
@[simp] theorem State.setOutQ_pending (q : List Payload) (s : State) : (s.setOutQ q).pending = s.pending := (rfl)
@[simp] theorem State.setOutQ_msgIn (q : List Payload) (s : State) : (s.setOutQ q).msgIn = s.msgIn := (rfl)
@[simp] theorem State.setOutQ_out (q : List Payload) (s : State) : (s.setOutQ q).out = s.out := (rfl)
@[simp] theorem State.setOutQ_bufEpoch (q : List Payload) (s : State) : (s.setOutQ q).bufEpoch = s.bufEpoch := (rfl)

@[simp] theorem State.setInQ_rsPhase (q : List InItem) (s : State) : (s.setInQ q).rsPhase = s.rsPhase := (rfl)
@[simp] theorem State.setInQ_rsLen (q : List InItem) (s : State) : (s.setInQ q).rsLen = s.rsLen := (rfl)
@[simp] theorem State.setInQ_rsCks (q : List InItem) (s : State) : (s.setInQ q).rsCks = s.rsCks := (rfl)
@[simp] theorem State.setInQ_rsBuf (q : List InItem) (s : State) : (s.setInQ q).rsBuf = s.rsBuf := (rfl)
@[simp] theorem State.setInQ_rsPos (q : List InItem) (s : State) : (s.setInQ q).rsPos = s.rsPos := (rfl)
@[simp] theorem State.setInQ_occ (q : List InItem) (s : State) : (s.setInQ q).occ = s.occ := (rfl)
@[simp] theorem State.setInQ_role (q : List InItem) (s : State) : (s.setInQ q).role = s.role := (rfl)
@[simp] theorem State.setInQ_phaseCnt (q : List InItem) (s : State) : (s.setInQ q).phaseCnt = s.phaseCnt := (rfl)
@[simp] theorem State.setInQ_startupCnt (q : List InItem) (s : State) : (s.setInQ q).startupCnt = s.startupCnt := (rfl)
@[simp] theorem State.setInQ_gate (q : List InItem) (s : State) : (s.setInQ q).gate = s.gate := (rfl)
@[simp] theorem State.setInQ_senseCnt (q : List InItem) (s : State) : (s.setInQ q).senseCnt = s.senseCnt := (rfl)
@[simp] theorem State.setInQ_outQ (q : List InItem) (s : State) : (s.setInQ q).outQ = s.outQ := (rfl)
@[simp] theorem State.setInQ_inQ (q : List InItem) (s : State) : (s.setInQ q).inQ = q := (rfl)
@[simp] theorem State.setInQ_cfg (q : List InItem) (s : State) : (s.setInQ q).cfg = s.cfg := (rfl)
@[simp] theorem State.setInQ_pending (q : List InItem) (s : State) : (s.setInQ q).pending = s.pending := (rfl)
@[simp] theorem State.setInQ_msgIn (q : List InItem) (s : State) : (s.setInQ q).msgIn = s.msgIn := (rfl)
@[simp] theorem State.setInQ_out (q : List InItem) (s : State) : (s.setInQ q).out = s.out := (rfl)
@[simp] theorem State.setInQ_bufEpoch (q : List InItem) (s : State) : (s.setInQ q).bufEpoch = s.bufEpoch := (rfl)

@[simp] theorem bufWrite_rsPhase (a : Nat) (v : Byte) (s : State) : (bufWrite a v s).rsPhase = s.rsPhase := (rfl)
@[simp] theorem bufWrite_rsLen (a : Nat) (v : Byte) (s : State) : (bufWrite a v s).rsLen = s.rsLen := (rfl)
@[simp] theorem bufWrite_rsCks (a : Nat) (v : Byte) (s : State) : (bufWrite a v s).rsCks = s.rsCks := (rfl)
@[simp] theorem bufWrite_rsBuf (a : Nat) (v : Byte) (s : State) : (bufWrite a v s).rsBuf = Memory.write s.rsBuf a v := (rfl)
@[simp] theorem bufWrite_rsPos (a : Nat) (v : Byte) (s : State) : (bufWrite a v s).rsPos = s.rsPos := (rfl)
@[simp] theorem bufWrite_occ (a : Nat) (v : Byte) (s : State) : (bufWrite a v s).occ = s.occ := (rfl)
@[simp] theorem bufWrite_role (a : Nat) (v : Byte) (s : State) : (bufWrite a v s).role = s.role := (rfl)
@[simp] theorem bufWrite_phaseCnt (a : Nat) (v : Byte) (s : State) : (bufWrite a v s).phaseCnt = s.phaseCnt := (rfl)
@[simp] theorem bufWrite_startupCnt (a : Nat) (v : Byte) (s : State) : (bufWrite a v s).startupCnt = s.startupCnt := (rfl)
@[simp] theorem bufWrite_gate (a : Nat) (v : Byte) (s : State) : (bufWrite a v s).gate = s.gate := (rfl)
@[simp] theorem bufWrite_senseCnt (a : Nat) (v : Byte) (s : State) : (bufWrite a v s).senseCnt = s.senseCnt := (rfl)
@[simp] theorem bufWrite_outQ (a : Nat) (v : Byte) (s : State) : (bufWrite a v s).outQ = s.outQ := (rfl)
@[simp] theorem bufWrite_inQ (a : Nat) (v : Byte) (s : State) : (bufWrite a v s).inQ = s.inQ := (rfl)
@[simp] theorem bufWrite_cfg (a : Nat) (v : Byte) (s : State) : (bufWrite a v s).cfg = s.cfg := (rfl)
@[simp] theorem bufWrite_pending (a : Nat) (v : Byte) (s : State) : (bufWrite a v s).pending = s.pending := (rfl)
@[simp] theorem bufWrite_msgIn (a : Nat) (v : Byte) (s : State) : (bufWrite a v s).msgIn = s.msgIn := (rfl)
@[simp] theorem bufWrite_out (a : Nat) (v : Byte) (s : State) : (bufWrite a v s).out = s.out := (rfl)
@[simp] theorem bufWrite_bufEpoch (a : Nat) (v : Byte) (s : State) : (bufWrite a v s).bufEpoch = s.bufEpoch := (rfl)

@[simp] theorem State.present_rsPhase (inp : PortInput) (s : State) : (s.present inp).rsPhase = s.rsPhase := (rfl)
@[simp] theorem State.present_rsLen (inp : PortInput) (s : State) : (s.present inp).rsLen = s.rsLen := (rfl)
@[simp] theorem State.present_rsCks (inp : PortInput) (s : State) : (s.present inp).rsCks = s.rsCks := (rfl)
@[simp] theorem State.present_rsBuf (inp : PortInput) (s : State) : (s.present inp).rsBuf = s.rsBuf := (rfl)
@[simp] theorem State.present_rsPos (inp : PortInput) (s : State) : (s.present inp).rsPos = s.rsPos := (rfl)
@[simp] theorem State.present_occ (inp : PortInput) (s : State) : (s.present inp).occ = s.occ := (rfl)
@[simp] theorem State.present_role (inp : PortInput) (s : State) : (s.present inp).role = s.role := (rfl)
@[simp] theorem State.present_phaseCnt (inp : PortInput) (s : State) : (s.present inp).phaseCnt = s.phaseCnt := (rfl)
@[simp] theorem State.present_startupCnt (inp : PortInput) (s : State) : (s.present inp).startupCnt = s.startupCnt := (rfl)
@[simp] theorem State.present_gate (inp : PortInput) (s : State) : (s.present inp).gate = s.gate := (rfl)
@[simp] theorem State.present_senseCnt (inp : PortInput) (s : State) : (s.present inp).senseCnt = s.senseCnt := (rfl)
@[simp] theorem State.present_outQ (inp : PortInput) (s : State) : (s.present inp).outQ = s.outQ := (rfl)
@[simp] theorem State.present_inQ (inp : PortInput) (s : State) : (s.present inp).inQ = s.inQ := (rfl)
@[simp] theorem State.present_cfg (inp : PortInput) (s : State) : (s.present inp).cfg = s.cfg := (rfl)
@[simp] theorem State.present_pending (inp : PortInput) (s : State) : (s.present inp).pending = inp :: s.pending := (rfl)
@[simp] theorem State.present_msgIn (inp : PortInput) (s : State) : (s.present inp).msgIn = s.msgIn := (rfl)
@[simp] theorem State.present_out (inp : PortInput) (s : State) : (s.present inp).out = s.out := (rfl)
@[simp] theorem State.present_bufEpoch (inp : PortInput) (s : State) : (s.present inp).bufEpoch = s.bufEpoch := (rfl)

end Sys2Proof.Machine
end

