-- ==== Sys2Proof/Laws/Ops.lean ====
section
/-! SUPPORT. What each shared operation can do, said once, so that later proofs cite it and do not unfold it: the
reassembly buffer and its canonical form, the queues, the transition, the reassembler, the end of a sense window. -/

namespace Sys2Proof.Machine

/-! ## The reassembly buffer -/

theorem Memory.read_write_self (m : Memory) (x : Nat) (v : Byte) : Memory.read (Memory.write m x v) x = some v := by
  induction m with
  | nil => simp [Memory.write, Memory.read]
  | cons c m ih =>
    obtain ⟨a, b⟩ := c
    simp only [Memory.write]
    split
    · simp [Memory.read]
    · split
      · simp [Memory.read]
      · simp [Memory.read, *]

theorem Memory.read_write_ne (m : Memory) {x y : Nat} (v : Byte) (h : x ≠ y) :
    Memory.read (Memory.write m x v) y = Memory.read m y := by
  induction m with
  | nil => simp [Memory.write, Memory.read, h]
  | cons c m ih =>
    obtain ⟨a, b⟩ := c
    simp only [Memory.write]
    split
    · simp [Memory.read, h]
    · split
      · subst_vars; simp [Memory.read, h]
      · simp [Memory.read, ih]

/-- The head of a strictly rising list lies below every address of its tail. -/
theorem Memory.rising_cons {a : Nat} {b : Byte} {m : Memory} :
    Memory.rising ((a, b) :: m) = true ↔ (∀ c ∈ m.head?, a < c.1) ∧ Memory.rising m = true := by
  cases m with
  | nil => simp [Memory.rising]
  | cons c m => obtain ⟨x, v⟩ := c; simp [Memory.rising]

theorem Memory.head_write (m : Memory) (x : Nat) (v : Byte) :
    ∀ c ∈ (Memory.write m x v).head?, c.1 = x ∨ ∃ d ∈ m.head?, c.1 = d.1 := by
  cases m with
  | nil => simp [Memory.write]
  | cons c m =>
    obtain ⟨a, b⟩ := c
    simp only [Memory.write]
    split
    · simp
    · split <;> simp

theorem Memory.rising_write {m : Memory} (x : Nat) (v : Byte) (h : Memory.rising m = true) :
    Memory.rising (Memory.write m x v) = true := by
  induction m with
  | nil => simp [Memory.write, Memory.rising]
  | cons c m ih =>
    obtain ⟨a, b⟩ := c
    have hm := Memory.rising_cons.1 h
    simp only [Memory.write]
    split
    · exact Memory.rising_cons.2 ⟨by simpa using ‹x < a›, h⟩
    · split
      · subst_vars; exact Memory.rising_cons.2 hm
      · refine Memory.rising_cons.2 ⟨?_, ih hm.2⟩
        intro c hc
        rcases Memory.head_write m x v c hc with h1 | ⟨d, hd, h1⟩
        · omega
        · have := hm.1 d hd; omega

/-- A write keeps the canonical form of the buffer. -/
theorem Memory.wf_write {m : Memory} (x : Nat) (v : Byte) (h : Memory.wf m = true) :
    Memory.wf (Memory.write m x v) = true := by
  simp only [Memory.wf, Memory.unlisted, Bool.and_eq_true, List.all_eq_true] at h ⊢
  exact ⟨Memory.rising_write x v h.1, by simp⟩

theorem Memory.wf_nil : Memory.wf [] = true := by decide

/-- Reset's buffer has the canonical form. -/
theorem reset_buffer_wf (c : Config) : Memory.wf (State.resetOf c).rsBuf = true := by
  simp [State.resetOf, Memory.wf_nil]

/-- The addresses a write leaves listed. -/
theorem Memory.mem_write {m : Memory} {x : Nat} {v : Byte} {c : Host.Cell} (h : c ∈ Memory.write m x v) :
    c = (x, v) ∨ c ∈ m := by
  induction m with
  | nil => simpa [Memory.write] using h
  | cons d m ih =>
    obtain ⟨a, b⟩ := d
    simp only [Memory.write] at h
    split at h
    · simpa using h
    · split at h
      · rcases List.mem_cons.1 h with h | h
        · exact .inl h
        · exact .inr (List.mem_cons_of_mem _ h)
      · rcases List.mem_cons.1 h with h | h
        · exact .inr (by simp [h])
        · rcases ih h with h | h
          · exact .inl h
          · exact .inr (List.mem_cons_of_mem _ h)

theorem bufRead_bufWrite_self (s : State) (a : Nat) (v : Byte) : bufRead (bufWrite a v s) a = v := by
  simp [bufRead, Memory.read_write_self]

theorem bufRead_bufWrite_ne (s : State) {a x : Nat} (v : Byte) (h : a ≠ x) :
    bufRead (bufWrite a v s) x = bufRead s x := by
  simp [bufRead, Memory.read_write_ne _ _ h]

@[simp] theorem bufPrefix_length (s : State) (k : Nat) : (bufPrefix s k).length = k := by simp [bufPrefix]

theorem bufPrefix_zero (s : State) : bufPrefix s 0 = [] := rfl

/-- What a buffer prefix reads depends only on the buffer and the free values of its epoch. -/
theorem bufPrefix_congr {s t : State} (hb : t.rsBuf = s.rsBuf) (he : t.bufEpoch = s.bufEpoch) (k : Nat) :
    bufPrefix t k = bufPrefix s k := by
  have h : bufRead t = bufRead s := by funext a; simp only [bufRead, hb, he]
  simp only [bufPrefix, h]

/-! ## The occupancy flag and the queues -/

theorem markOccupied_eq (s : State) : markOccupied s = { s with occ := true } := rfl

theorem takeAndClear_eq (s : State) : takeAndClear s = (s.occ, { s with occ := false }) := rfl

/-- `push_in` writes `in_q` or reports that it is full, and nothing else. -/
theorem pushIn_eq (x : InItem) (s : State) :
    pushIn x s =
      { s with
        inQ := if s.inQ.length = s.cfg.queueCap then s.inQ else s.inQ ++ [x]
        out := if s.inQ.length = s.cfg.queueCap then { s.out with events := s.out.events ++ [.queueFullIn] }
               else s.out } := by
  simp only [pushIn]
  split <;> rfl

theorem popOut_cons {s : State} {p : Payload} {q : List Payload} (h : s.outQ = p :: q) :
    popOut s = some (p, s.setOutQ q) := by
  simp [popOut, h]

theorem popOut_nil {s : State} (h : s.outQ = []) : popOut s = none := by simp [popOut, h]

theorem discardHead_eq (s : State) : discardHead s = { s with outQ := s.outQ.tail } := by
  cases h : s.outQ with
  | nil =>
    rw [List.tail_nil, ← h]
    simp [discardHead, popOut_nil h]
  | cons p q => simp [discardHead, popOut_cons h, State.setOutQ]

/-! ## The transition -/

/-- A transition finds a sense window open. -/
abbrev windowOpen (s : State) : Prop := s.role = .transmit ∧ s.gate = .gSense

/-- The events a transition adds (43_scheduler.md R153). -/
def transitionEvents (new : ActiveRole) (cause : Cause) : List Event :=
  if cause = .collision then [.collision, phaseEvent new] else [phaseEvent new]

/-- Everything a transition does (43_scheduler.md R151). -/
theorem transition_eq (new : ActiveRole) (cause : Cause) (s : State) :
    transition new cause s =
      { s with
        rsPhase := .awaitLengthHigh
        rsPos := 0#16
        occ := false
        role := roleOf new
        phaseCnt := 0
        startupCnt := 0
        gate := if windowOpen s then .gIdle else s.gate
        senseCnt := if windowOpen s then 0 else s.senseCnt
        outQ := if windowOpen s ∧ cause = .collision then s.outQ.tail else s.outQ
        out := { s.out with events := s.out.events ++ transitionEvents new cause } } := by
  by_cases hw : windowOpen s <;> by_cases hc : cause = .collision <;>
    simp [transition, emitTransition, suspendGate, cancelSense, hw, hc, transitionEvents, discardHead_eq,
      resetReassembly, State.emit, State.setCursor, State.setOcc, State.enterRole, State.setGate]

/-! ## The reassembler -/

/-- `complete()` writes the cursor only, and answers with the stored prefix or a checksum error. -/
theorem complete_eq (s : State) :
    complete s =
      (if cks (bufPrefix s (storedLen s)) = s.rsCks then .frameReady (bufPrefix s (storedLen s)) else .checksumError,
       { s with rsPhase := .awaitLengthHigh, rsPos := 0#16 }) := by
  simp only [complete]
  split <;> rfl

theorem feedByte_awaitLengthHigh {s : State} (b : Byte) (h : s.rsPhase = .awaitLengthHigh) :
    feedByte b s = (.incomplete, { s with rsLen := joinBytes b 0#8, rsPhase := .awaitLengthLow }) := by
  simp only [feedByte, h]; rfl

theorem feedByte_awaitLengthLow {s : State} (b : Byte) (h : s.rsPhase = .awaitLengthLow) :
    feedByte b s = (.incomplete, { s with rsLen := joinBytes (hiByte s.rsLen) b, rsPhase := .awaitChecksum }) := by
  simp only [feedByte, h]; rfl

theorem feedByte_awaitChecksum_zero {s : State} (b : Byte) (h : s.rsPhase = .awaitChecksum) (hl : s.rsLen = 0#16) :
    feedByte b s =
      (if b = 0#8 then .frameReady [] else .checksumError,
       { s with rsCks := b, rsPos := 0#16, rsPhase := .awaitLengthHigh }) := by
  have hk : storedLen ((s.setCks b).setCursor s.rsPhase 0#16) = 0 := by simp [storedLen, hl]
  simp only [feedByte, h, feedChecksum, hl, if_true, complete_eq]
  rw [h] at hk
  rw [hk, bufPrefix_zero]
  have hc : cks [] = 0#8 := by decide
  by_cases hb : b = 0#8
  · subst hb; simp [hc, hl, State.setCks, State.setCursor]
  · have hb' : ¬ (0#8 = b) := fun e => hb e.symm
    simp [hc, hl, hb, hb', State.setCks, State.setCursor]

theorem feedByte_awaitChecksum_pos {s : State} (b : Byte) (h : s.rsPhase = .awaitChecksum) (hl : s.rsLen ≠ 0#16) :
    feedByte b s = (.incomplete, { s with rsCks := b, rsPos := 0#16, rsPhase := .awaitPayload }) := by
  simp only [feedByte, h, feedChecksum, hl, if_false]; rfl

theorem feedByte_awaitPayload {s : State} (b : Byte) (h : s.rsPhase = .awaitPayload) :
    feedByte b s = advancePayload (storePayloadByte b s) := by
  simp only [feedByte, h]; rfl

/-- The store of a payload byte writes one byte of the buffer or nothing. -/
theorem storePayloadByte_eq (b : Byte) (s : State) :
    storePayloadByte b s =
      { s with rsBuf := if s.rsPos.toNat < s.cfg.rxBufCap then Memory.write s.rsBuf s.rsPos.toNat b else s.rsBuf } := by
  simp only [storePayloadByte]
  split <;> rfl

/-- The advance before the last payload byte. -/
theorem advancePayload_more {s : State} (h : s.rsPos + 1#16 ≠ s.rsLen) :
    advancePayload s = (.incomplete, { s with rsPos := s.rsPos + 1#16 }) := by
  simp only [advancePayload, State.setCursor_rsPos, State.setCursor_rsLen, h, if_false]; rfl

/-- The advance at the last payload byte completes the frame. -/
theorem advancePayload_last {s : State} (h : s.rsPos + 1#16 = s.rsLen) :
    advancePayload s =
      (if cks (bufPrefix s (storedLen s)) = s.rsCks then .frameReady (bufPrefix s (storedLen s)) else .checksumError,
       { s with rsPhase := .awaitLengthHigh, rsPos := 0#16 }) := by
  simp only [advancePayload, State.setCursor_rsPos, State.setCursor_rsLen, h, if_true, complete_eq]
  have hp : bufPrefix (s.setCursor s.rsPhase s.rsLen) = bufPrefix s := by
    funext k; exact bufPrefix_congr rfl rfl k
  rw [hp]
  rfl

/-- `feed_byte` writes only the `rs_*` elements (41_reassembler.md R110), and never `rs_phase` other than forward. -/
theorem feedByte_frame (b : Byte) (s : State) :
    (feedByte b s).2 =
      { s with
        rsPhase := (feedByte b s).2.rsPhase
        rsLen := (feedByte b s).2.rsLen
        rsCks := (feedByte b s).2.rsCks
        rsBuf := (feedByte b s).2.rsBuf
        rsPos := (feedByte b s).2.rsPos } := by
  cases h : s.rsPhase with
  | awaitLengthHigh => rw [feedByte_awaitLengthHigh b h]
  | awaitLengthLow => rw [feedByte_awaitLengthLow b h]
  | awaitChecksum =>
    by_cases hl : s.rsLen = 0#16
    · rw [feedByte_awaitChecksum_zero b h hl]
    · rw [feedByte_awaitChecksum_pos b h hl]
  | awaitPayload =>
    rw [feedByte_awaitPayload b h]
    by_cases hp : (storePayloadByte b s).rsPos + 1#16 = (storePayloadByte b s).rsLen
    · rw [advancePayload_last hp, storePayloadByte_eq]
    · rw [advancePayload_more hp, storePayloadByte_eq]

/-- `feed_block` of two blocks is one after the other (41_reassembler.md R119). -/
theorem feedBlock_cons (b : Byte) (bs : List Byte) (s : State) :
    feedBlock (b :: bs) s =
      (reportable (feedByte b s).1 ++ (feedBlock bs (feedByte b s).2).1, (feedBlock bs (feedByte b s).2).2) := rfl

/-! ## The end of a sense window -/

/-- Everything `resolve` can answer with a next state (42_occupancy_gate.md R138). -/
theorem resolve_next {s t : State} (h : resolve s = .next t) :
    ∃ p q, s.outQ = p :: q ∧
      ((s.occ = true ∧
          t = { s with outQ := q, gate := .gIdle, senseCnt := 0,
                       out := { s.out with events := s.out.events ++ [.collision] } }) ∨
       (s.occ = false ∧ p.length ≤ s.cfg.maxPayload ∧
          t = { s with outQ := q, gate := .gIdle, senseCnt := 0,
                       out := { s.out with wireOut := encodeFrame p, events := s.out.events ++ [.txSuccess] } })) := by
  cases hq : s.outQ with
  | nil => simp [resolve, popOut_nil hq] at h
  | cons p q =>
    refine ⟨p, q, rfl, ?_⟩
    simp only [resolve, popOut_cons hq] at h
    split at h
    · exact .inl ⟨‹_›, by cases h; rfl⟩
    · refine .inr ⟨by simpa using ‹¬ s.occ = true›, ?_⟩
      simp only [sendFrame, frameOf, State.setGate_cfg, State.setOutQ_cfg] at h
      by_cases hp : p.length ≤ s.cfg.maxPayload
      · simp only [hp, if_true] at h
        exact ⟨hp, by cases h; rfl⟩
      · simp [hp] at h

/-- The window ends and sends, under the conditions that say so. -/
theorem resolve_sends {s : State} {p : Payload} {q : List Payload} (hq : s.outQ = p :: q) (ho : s.occ = false)
    (hp : p.length ≤ s.cfg.maxPayload) :
    resolve s = .next { s with outQ := q, gate := .gIdle, senseCnt := 0,
                               out := { s.out with wireOut := encodeFrame p,
                                                   events := s.out.events ++ [.txSuccess] } } := by
  have ho' : ¬ s.occ = true := by simp [ho]
  simp only [resolve, popOut_cons hq, if_neg ho', sendFrame, frameOf, State.setGate_cfg, State.setOutQ_cfg, hp, if_true]
  rfl

end Sys2Proof.Machine
end

