-- ==== Sys2Proof/Laws/Commands.lean ====
section
/-! SUPPORT. What each command can do, said once: its next state as one record where it always has one, or the list of
the cases in which it answers a next state. Then the step itself. -/

namespace Sys2Proof.Machine

theorem execNop_eq (s : State) : execNop s = .next { s with out := StepOut.quiet } := rfl

theorem execSreset_eq (s : State) : execSreset s = .next (resetNode s) := rfl

theorem execRxByte_idle {s : State} (b : Byte) (h : s.role = .idle) :
    execRxByte b s = .next { s with occ := true, out := StepOut.quiet } := by
  unfold execRxByte
  split <;> first | rfl | simp_all

theorem execRxByte_transmit {s : State} (b : Byte) (h : s.role = .transmit) :
    execRxByte b s = .next (transition .receive .collision { s with occ := true, out := StepOut.quiet }) := by
  unfold execRxByte
  split <;> first | rfl | simp_all

theorem execRxByte_receive {s : State} (b : Byte) (h : s.role = .receive) :
    execRxByte b s = .next (handOff (feedByte b { s with occ := true, out := StepOut.quiet })) := by
  unfold execRxByte
  split <;> first | rfl | simp_all

/-- The items a result hands to the inbound queue (41_reassembler.md R121). -/
def FeedResult.items : FeedResult → List InItem
  | .incomplete => []
  | .frameReady p => [.payload p]
  | .checksumError => [.errChecksum]

/-- The hand-off of a result writes `in_q` or reports that it is full, and nothing else. -/
theorem handOff_eq (r : FeedResult × State) :
    handOff r =
      { r.2 with
        inQ := if r.2.inQ.length = r.2.cfg.queueCap then r.2.inQ else r.2.inQ ++ r.1.items
        out := if r.1 ≠ .incomplete ∧ r.2.inQ.length = r.2.cfg.queueCap
               then { r.2.out with events := r.2.out.events ++ [.queueFullIn] } else r.2.out } := by
  obtain ⟨r, s⟩ := r
  cases r <;> simp [handOff, pushIn_eq, FeedResult.items]

theorem Role.cases (r : Role) : r = .idle ∨ r = .transmit ∨ r = .receive := by cases r <;> simp

/-- The cases in which `TICK` answers a next state (43_scheduler.md R154 to R156, 42_occupancy_gate.md R137, R138). -/
theorem execTick_next {s t : State} (h : execTick s = .next t) :
    (s.role = .idle ∧ s.startupCnt + 1 = s.cfg.startupTicks ∧
        t = transition s.cfg.defaultRole .startup { s with out := StepOut.quiet }) ∨
    (s.role = .idle ∧ s.startupCnt + 1 ≠ s.cfg.startupTicks ∧
        t = { s with startupCnt := s.startupCnt + 1, out := StepOut.quiet }) ∨
    (∃ r, s.role = roleOf r ∧ s.phaseCnt + 1 = s.cfg.phaseTicks ∧
        t = transition (otherRole r) .periodicTimeout { s with out := StepOut.quiet }) ∨
    (s.role ≠ .idle ∧ s.phaseCnt + 1 ≠ s.cfg.phaseTicks ∧ ¬ windowOpen s ∧
        t = { s with phaseCnt := s.phaseCnt + 1, out := StepOut.quiet }) ∨
    (windowOpen s ∧ s.phaseCnt + 1 ≠ s.cfg.phaseTicks ∧ s.senseCnt + 1 ≠ s.cfg.senseTicks ∧
        t = { s with phaseCnt := s.phaseCnt + 1, senseCnt := s.senseCnt + 1, out := StepOut.quiet }) ∨
    (windowOpen s ∧ s.phaseCnt + 1 ≠ s.cfg.phaseTicks ∧ s.senseCnt + 1 = s.cfg.senseTicks ∧
        resolve { s with phaseCnt := s.phaseCnt + 1, out := StepOut.quiet } = .next t) := by
  have key : ∀ r, s.role = roleOf r → phaseTick r s.beginStep = .next t →
      (s.phaseCnt + 1 = s.cfg.phaseTicks ∧
        t = transition (otherRole r) .periodicTimeout { s with out := StepOut.quiet }) ∨
      (s.phaseCnt + 1 ≠ s.cfg.phaseTicks ∧ ¬ windowOpen s ∧
        t = { s with phaseCnt := s.phaseCnt + 1, out := StepOut.quiet }) ∨
      (windowOpen s ∧ s.phaseCnt + 1 ≠ s.cfg.phaseTicks ∧ s.senseCnt + 1 ≠ s.cfg.senseTicks ∧
        t = { s with phaseCnt := s.phaseCnt + 1, senseCnt := s.senseCnt + 1, out := StepOut.quiet }) ∨
      (windowOpen s ∧ s.phaseCnt + 1 ≠ s.cfg.phaseTicks ∧ s.senseCnt + 1 = s.cfg.senseTicks ∧
        resolve { s with phaseCnt := s.phaseCnt + 1, out := StepOut.quiet } = .next t) := by
    intro r _ ht
    simp only [phaseTick, State.beginStep_phaseCnt, State.beginStep_cfg] at ht
    by_cases hp : s.phaseCnt + 1 = s.cfg.phaseTicks
    · rw [if_pos hp] at ht
      exact .inl ⟨hp, by cases ht; rfl⟩
    rw [if_neg hp] at ht
    simp only [gateTick, State.setPhaseCnt_role, State.setPhaseCnt_gate, State.beginStep_role,
      State.beginStep_gate] at ht
    by_cases hw : windowOpen s
    · rw [if_pos hw] at ht
      simp only [senseTick, State.setPhaseCnt_senseCnt, State.setPhaseCnt_cfg, State.beginStep_senseCnt,
        State.beginStep_cfg] at ht
      by_cases hs : s.senseCnt + 1 = s.cfg.senseTicks
      · rw [if_pos hs] at ht
        exact .inr (.inr (.inr ⟨hw, hp, hs, ht⟩))
      · rw [if_neg hs] at ht
        exact .inr (.inr (.inl ⟨hw, hp, hs, by cases ht; rfl⟩))
    · rw [if_neg hw] at ht
      exact .inr (.inl ⟨hp, hw, by cases ht; rfl⟩)
  rcases Role.cases s.role with hr | hr | hr
  · simp only [execTick, hr, startupTick, State.beginStep_startupCnt, State.beginStep_cfg] at h
    by_cases hs : s.startupCnt + 1 = s.cfg.startupTicks
    · rw [if_pos hs] at h
      exact .inl ⟨hr, hs, by cases h; rfl⟩
    · rw [if_neg hs] at h
      exact .inr (.inl ⟨hr, hs, by cases h; rfl⟩)
  · simp only [execTick, hr] at h
    rcases key .transmit hr h with h | h | h | h
    · exact .inr (.inr (.inl ⟨.transmit, hr, h⟩))
    · exact .inr (.inr (.inr (.inl ⟨by simp [hr], h⟩)))
    · exact .inr (.inr (.inr (.inr (.inl h))))
    · exact .inr (.inr (.inr (.inr (.inr h))))
  · simp only [execTick, hr] at h
    rcases key .receive hr h with h | h | h | h
    · exact .inr (.inr (.inl ⟨.receive, hr, h⟩))
    · exact .inr (.inr (.inr (.inl ⟨by simp [hr], h⟩)))
    · exact absurd h.1.1 (by simp [hr])
    · exact absurd h.1.1 (by simp [hr])

theorem execManual_eq (s : State) :
    execManual s = .next (transition (manualTarget s) .manualOverride { s with out := StepOut.quiet }) := rfl

/-- The cases of `TRY_SEND` (42_occupancy_gate.md R134, R135). -/
theorem execTrySend_eq (s : State) :
    execTrySend s =
      .next (if s.role = .transmit ∧ s.gate = .gIdle ∧ s.outQ ≠ []
             then { s with occ := false, gate := .gSense, senseCnt := 0, out := StepOut.quiet }
             else { s with out := { StepOut.quiet with ack := false } }) := by
  simp only [execTrySend, trySendEnabled, Bool.and_eq_true, decide_eq_true_eq, Bool.not_eq_true',
    List.isEmpty_eq_false_iff]
  by_cases h : s.role = .transmit ∧ s.gate = .gIdle ∧ s.outQ ≠ []
  · rw [if_pos h, if_pos ⟨⟨h.1, h.2.1⟩, h.2.2⟩]; rfl
  · rw [if_neg h, if_neg (fun g => h ⟨g.1.1, g.1.2, g.2⟩)]; rfl

/-- The cases of `ENQ_OUT` (44_queues.md R174). -/
theorem execEnqOut_eq (s : State) :
    execEnqOut s =
      .next (if s.cfg.maxPayload < s.msgIn.len.toNat
             then { s with out := { StepOut.quiet with ack := false, events := [.oversizePayload] } }
             else if s.outQ.length = s.cfg.queueCap
             then { s with out := { StepOut.quiet with ack := false, events := [.queueFullOut] } }
             else { s with outQ := s.outQ ++ [s.msgIn.offered], out := StepOut.quiet }) := by
  simp only [execEnqOut]
  split
  · rfl
  · split <;> rfl

/-- `DEQ_IN` where its worker is suspended or the queue is empty (44_queues.md R175). -/
theorem execDeqIn_refused {s : State} (h : s.role ≠ .receive ∨ s.inQ = []) :
    execDeqIn s = .next { s with out := { StepOut.quiet with ack := false } } := by
  simp only [execDeqIn]
  split
  · have hq : s.inQ = [] := h.resolve_left (not_not.2 ‹_›)
    have ht : takeInbound s.beginStep = s.beginStep.nack := by simp [takeInbound, hq]
    rw [ht]; rfl
  · rfl

/-- `DEQ_IN` where it takes an item (44_queues.md R175). -/
theorem execDeqIn_takes {s : State} {x : InItem} {q : List InItem} (hr : s.role = .receive) (hq : s.inQ = x :: q) :
    execDeqIn s =
      .next { s with
              inQ := q
              out := { StepOut.quiet with
                       msgOut := some x
                       events := if x = .errChecksum then [.checksumError] else [] } } := by
  simp only [execDeqIn, hr, if_true, takeInbound, State.beginStep_inQ, hq]
  cases x <;> simp [reportItem, State.putMsg, State.emit, State.setInQ, State.beginStep, StepOut.quiet, hr]

/-! ## The step -/

/-- With no command presented nothing changes (00_scope.md R6). -/
theorem step_nothing {s : State} (h : s.pending = []) : step s = .next s := by
  simp [step, select, h]

/-- A presented input is decoded and runs on the state without it. -/
theorem step_cons {s : State} {inp : PortInput} {rest : List PortInput} (h : s.pending = inp :: rest) :
    step s =
      match selectInput inp with
      | .nothing => .next s
      | .reset => .next (resetNode { s with pending := rest, msgIn := inp.msgIn })
      | .illegal _ => .next (illegalCommand { s with pending := rest, msgIn := inp.msgIn })
      | .command i => exec i { s with pending := rest, msgIn := inp.msgIn } := by
  have hs : select s = selectInput inp := by simp only [select, h]
  have hl : latch s = { s with pending := rest, msgIn := inp.msgIn } := by simp only [latch, h]
  cases hi : selectInput inp <;> simp only [step, hs, hl, hi]

/-- A presented input, whatever else the environment has in store. -/
theorem step_present (s : State) (inp : PortInput) :
    step (s.present inp) =
      match selectInput inp with
      | .nothing => .next (s.present inp)
      | .reset => .next (resetNode { s with msgIn := inp.msgIn })
      | .illegal _ => .next (illegalCommand { s with msgIn := inp.msgIn })
      | .command i => exec i { s with msgIn := inp.msgIn } :=
  step_cons rfl

end Sys2Proof.Machine
end

