-- ==== Sys2Proof/Laws/PerInstr.lean ====
section
/-! SUPPORT. Families of statements about a command as syntax, one lemma per constructor of `Instr`. -/

namespace Sys2Proof.Laws

/-- The word the encoder writes for a command matches exactly the row of its own mnemonic in the opcode map
(30_encoding.md R77). -/
def EncodedWordMatchesItsRow.Statement (i : Instr) : Prop :=
  opcodeRows.filterMap (fun r => if r.matchesWord (encode i) then some r.mnemonic else none) = [mnemonicOf i]

theorem EncodedWordMatchesItsRow.nop : EncodedWordMatchesItsRow.Statement .nop := by
  unfold EncodedWordMatchesItsRow.Statement; decide

theorem EncodedWordMatchesItsRow.rxByte (b : Byte) : EncodedWordMatchesItsRow.Statement (.rxByte b) := by
  unfold EncodedWordMatchesItsRow.Statement
  revert b
  decide

theorem EncodedWordMatchesItsRow.tick : EncodedWordMatchesItsRow.Statement .tick := by
  unfold EncodedWordMatchesItsRow.Statement; decide

theorem EncodedWordMatchesItsRow.manual : EncodedWordMatchesItsRow.Statement .manual := by
  unfold EncodedWordMatchesItsRow.Statement; decide

theorem EncodedWordMatchesItsRow.enqOut : EncodedWordMatchesItsRow.Statement .enqOut := by
  unfold EncodedWordMatchesItsRow.Statement; decide

theorem EncodedWordMatchesItsRow.deqIn : EncodedWordMatchesItsRow.Statement .deqIn := by
  unfold EncodedWordMatchesItsRow.Statement; decide

theorem EncodedWordMatchesItsRow.trySend : EncodedWordMatchesItsRow.Statement .trySend := by
  unfold EncodedWordMatchesItsRow.Statement; decide

theorem EncodedWordMatchesItsRow.sreset : EncodedWordMatchesItsRow.Statement .sreset := by
  unfold EncodedWordMatchesItsRow.Statement; decide

end Sys2Proof.Laws
end

