-- ==== Sys2Proof/Machine/Script.lean ====
section
/-! DEFINITION. Scripts: the command lines of 30_encoding.md R88, the pseudo-commands of R89, and their text form. A
script is what the environment presents; nothing here is part of the block. -/

namespace Sys2Proof.Machine

/-- One line of a one-node script (30_encoding.md R88, R89). -/
inductive ScriptLine where
  | nop
  | rx (b : Byte)
  | tick
  | manual
  /-- `ENQ p` -/
  | enq (p : Payload)
  /-- `ENQ len=n`, which "offers a length only" -/
  | enqLen (n : Half)
  | deq
  /-- `TRY` -/
  | trySend
  | sreset
  /-- `RAW w` -/
  | raw (w : Half)
  | ticks (n : Nat)
  | rxBytes (bs : List Byte)
  | rxFrame (p : Payload)
  deriving DecidableEq, Repr

/-- The message port that a script line giving none presents: length 0. A step that is no `ENQ_OUT` does not sample the
port (30_encoding.md R80), so there it says nothing. Where `RAW w` has an `ENQ_OUT` word (0x4000 to 0x40FF) the step does
sample it, and offers the empty payload: DESIGN CHOICE (log 19). -/
def noMessage : MsgIn := { len := 0#16, data := [] }

/-- The inputs a line presents, pseudo-commands expanded (30_encoding.md R88, R89). DESIGN CHOICE (log 18) for two lines
of which the spec does not say what they present: `ENQ p` with `len(p) > 65535` offers the length cut to 16 bits
(`MsgIn.ofPayload`), and `RXFRAME p` with `len(p) > MAX_PAYLOAD`, where `encode(p)` is not defined (40_framer.md R102), is
the bytes of the total `encodeFrame`. DESIGN CHOICE (log 19) also for the message port of `RAW w`, of which R88 gives the
word only: length 0, so that `RAW` of an `ENQ_OUT` word queues an empty payload where there is room. -/
def ScriptLine.inputs : ScriptLine → List PortInput
  | .nop => [cmdInput .nop]
  | .rx b => [rxInput b]
  | .tick => [cmdInput .tick]
  | .manual => [cmdInput .manual]
  | .enq p => [enqInput p]
  | .enqLen n => [PortInput.word (encode .enqOut) { len := n, data := [] }]
  | .deq => [cmdInput .deqIn]
  | .trySend => [cmdInput .trySend]
  | .sreset => [cmdInput .sreset]
  | .raw w => [PortInput.word w noMessage]
  | .ticks n => List.replicate n (cmdInput .tick)
  | .rxBytes bs => bs.map rxInput
  | .rxFrame p => (encodeFrame p).map rxInput

/-- The inputs of a whole script, in order. -/
def scriptInputs (ls : List ScriptLine) : List PortInput := ls.flatMap ScriptLine.inputs

/-- One line of a two-node script (30_encoding.md R88, R89). -/
inductive PairLine where
  /-- A line with the prefix `A.` or `B.` -/
  | on (n : NodeId) (l : ScriptLine)
  /-- `BOTH c` -/
  | both (l : ScriptLine)
  /-- `DELIVER A>B` has `receiver` B: every byte under way to it is delivered, in order -/
  | deliver (receiver : NodeId)
  deriving DecidableEq, Repr

/-- The bytes under way to a node. -/
def Pair.underWay (p : Pair) : NodeId → List Byte
  | .a => p.toA
  | .b => p.toB

/-- How an input of a script line reaches a node of a pair, given the bytes under way to it, and the bytes then still
under way. DESIGN CHOICE (log 21): an `RX_BYTE` of the oldest byte under way is the delivery of that byte, as
95_test_vectors.md P10 writes it and as R89 expands `DELIVER`; an `RX_BYTE` of any other byte is noise
(60_exceptions.md R220). Either way the node makes the same step (`pairStep_deliverA_eq`, `pairStep_deliverB_eq`). -/
def arrival (n : NodeId) (inp : PortInput) : List Byte → PairCmd × List Byte
  | [] => (.node n inp, [])
  | b :: wire => if selectInput inp = .command (.rxByte b) then (.deliver n, wire) else (.node n inp, b :: wire)

/-- How the inputs of one line reach one node, in order. No step of a node puts a byte on the way to itself
(60_exceptions.md R220), so the bytes under way at the start of the line are all that count. -/
def arrivals (n : NodeId) : List PortInput → List Byte → List PairCmd
  | [], _ => []
  | inp :: is, wire => (arrival n inp wire).1 :: arrivals n is (arrival n inp wire).2

/-- How the inputs of one line reach both nodes, A before B for each input (log 16). A line with an `RX_BYTE` has nothing
else in it, and `RX_BYTE` puts nothing on the wire (30_encoding.md R83), so here too the bytes under way at its start
are all that count. -/
def bothArrivals : List PortInput → List Byte → List Byte → List PairCmd
  | [], _, _ => []
  | inp :: is, toA, toB =>
    (arrival .a inp toA).1 :: (arrival .b inp toB).1 :: bothArrivals is (arrival .a inp toA).2 (arrival .b inp toB).2

/-- What a line makes happen in a pair: `BOTH c` is `A.c` then `B.c` for each command that `c` expands to
(30_encoding.md R89, 95_test_vectors.md P4). Whether an `RX` line is a delivery or noise is `arrival` (log 21). -/
def PairLine.commands (p : Pair) : PairLine → List PairCmd
  | .on n l => arrivals n l.inputs (p.underWay n)
  | .both l => bothArrivals l.inputs p.toA p.toB
  | .deliver n => List.replicate (p.underWay n).length (.deliver n)

/-- A two-node script on a pair, up to the first stop. -/
def runPairScript : List PairLine → Pair → Host.Outcome Pair Fault Refusal
  | [], p => .next p
  | l :: ls, p =>
    match pairRun (l.commands p) p with
    | .next q => runPairScript ls q
    | .fault r => .fault r
    | .refused r => .refused r

/-! ## The text form (30_encoding.md R88). Text is a list of characters. -/

/-- A token of a line. -/
inductive Token where
  /-- A run of characters without blanks, quotes or brackets. -/
  | word (cs : List Char)
  /-- The characters between double quotes. -/
  | text (cs : List Char)
  /-- The character between single quotes. -/
  | char (c : Char)
  | openBracket
  | closeBracket
  deriving DecidableEq, Repr

/-- Where the tokenizer stands. Characters collected so far are in reverse. -/
inductive LexMode where
  | plain (acc : List Char)
  | inText (acc : List Char)
  | charOpen
  | charClose (c : Char)
  deriving DecidableEq, Repr

/-- The word collected so far, before the tokens that follow it. -/
def endWord (acc : List Char) (rest : List Token) : List Token := if acc = [] then rest else .word acc.reverse :: rest

/-- The tokens of a line; `;` outside quotes starts a comment (30_encoding.md R88). `none` for an unclosed quote. -/
def tokens : List Char → LexMode → Option (List Token)
  | [], .plain acc => some (endWord acc [])
  | [], _ => none
  | c :: cs, .plain acc =>
    if c = ';' then some (endWord acc [])
    else if c = ' ' then (tokens cs (.plain [])).map (endWord acc)
    else if c = '[' then (tokens cs (.plain [])).map (fun ts => endWord acc (.openBracket :: ts))
    else if c = ']' then (tokens cs (.plain [])).map (fun ts => endWord acc (.closeBracket :: ts))
    else if c = Char.ofNat 34 then (tokens cs (.inText [])).map (endWord acc)
    else if c = Char.ofNat 39 then (tokens cs .charOpen).map (endWord acc)
    else tokens cs (.plain (c :: acc))
  | c :: cs, .inText acc =>
    if c = Char.ofNat 34 then (tokens cs (.plain [])).map (fun ts => .text acc.reverse :: ts)
    else tokens cs (.inText (c :: acc))
  | c :: cs, .charOpen => tokens cs (.charClose c)
  | c :: cs, .charClose d =>
    if c = Char.ofNat 39 then (tokens cs (.plain [])).map (fun ts => .char d :: ts) else none

/-- The value of a digit below `base`, letters as hexadecimal digits. -/
def digit (base : Nat) (c : Char) : Option Nat :=
  let n := c.toNat
  let v := if 48 ≤ n ∧ n ≤ 57 then n - 48
    else if 65 ≤ n ∧ n ≤ 70 then n - 55
    else if 97 ≤ n ∧ n ≤ 102 then n - 87 else base
  if v < base then some v else none

/-- A number written in `base`, most significant digit first. -/
def digits (base : Nat) : List Char → Nat → Option Nat
  | [], v => some v
  | c :: cs, v => (digit base c).bind (fun d => digits base cs (v * base + d))

/-- The number of `RAW`, `TICKS` and `len=`: `0x` and one or more hexadecimal digits of either case, or one or more
decimal digits. DESIGN CHOICE (log 20): 30_encoding.md R88, R89 give no written form for these. -/
def number : List Char → Option Nat
  | [] => none
  | '0' :: 'x' :: c :: cs => digits 16 (c :: cs) 0
  | c :: cs => digits 10 (c :: cs) 0

/-- The number of `RX`: `0xHH`, or decimal (30_encoding.md R88). The two digits after `0x` may have letters of either
case, and a decimal number may have leading zeros: DESIGN CHOICE (log 20). -/
def rxNumber : List Char → Option Nat
  | [] => none
  | ['0', 'x', h, l] => digits 16 [h, l] 0
  | c :: cs => digits 10 (c :: cs) 0

/-- An element of a byte list: hexadecimal, with or without `0x` (95_test_vectors.md conventions; log 16). -/
def listElement : List Char → Option Nat
  | [] => none
  | '0' :: 'x' :: c :: cs => digits 16 (c :: cs) 0
  | c :: cs => digits 16 (c :: cs) 0

/-- A number as a byte, if it is one. -/
def asByte (n : Nat) : Option Byte := if n < 256 then some (BitVec.ofNat 8 n) else none

/-- A number as a 16-bit value, if it is one. -/
def asHalf (n : Nat) : Option Half := if n < 65536 then some (BitVec.ofNat 16 n) else none

/-- The ASCII byte of a character (30_encoding.md R88 [from general knowledge]; PRESUMED, log 16). -/
def asciiByte (c : Char) : Option Byte := if c.toNat < 128 then some (BitVec.ofNat 8 c.toNat) else none

/-- The ASCII bytes of a text, no terminator (30_encoding.md R88). -/
def asciiBytes : List Char → Option (List Byte)
  | [] => some []
  | c :: cs => (asciiByte c).bind (fun b => (asciiBytes cs).map (fun bs => b :: bs))

/-- The bytes up to the closing bracket that ends the line. -/
def bytesToBracket : List Token → Option (List Byte)
  | [.closeBracket] => some []
  | .word w :: ts => ((listElement w).bind asByte).bind (fun b => (bytesToBracket ts).map (fun bs => b :: bs))
  | _ => none

/-- A payload: `"text"` or `[b0 b1 ...]` (30_encoding.md R88). -/
def payloadOf : List Token → Option Payload
  | [.text cs] => asciiBytes cs
  | .openBracket :: ts => bytesToBracket ts
  | _ => none

/-- The operand of `RX`: a number 0 to 255 or a character (30_encoding.md R88). -/
def byteOf : List Token → Option Byte
  | [.word w] => (rxNumber w).bind asByte
  | [.char c] => asciiByte c
  | _ => none

/-- The operand of `ENQ`: a payload or `len=n` (30_encoding.md R88). -/
def enqOf : List Token → Option ScriptLine
  | [.word ('l' :: 'e' :: 'n' :: '=' :: n)] => ((number n).bind asHalf).map .enqLen
  | ts => (payloadOf ts).map .enq

/-- A line without operands. -/
def bareLine (l : ScriptLine) : List Token → Option ScriptLine
  | [] => some l
  | _ => none

/-- A line given its name and operands (30_encoding.md R88, R89). -/
def lineOf (name : List Char) (args : List Token) : Option ScriptLine :=
  if name = ['N', 'O', 'P'] then bareLine .nop args
  else if name = ['R', 'X'] then (byteOf args).map .rx
  else if name = ['T', 'I', 'C', 'K'] then bareLine .tick args
  else if name = ['M', 'A', 'N', 'U', 'A', 'L'] then bareLine .manual args
  else if name = ['E', 'N', 'Q'] then enqOf args
  else if name = ['D', 'E', 'Q'] then bareLine .deq args
  else if name = ['T', 'R', 'Y'] then bareLine .trySend args
  else if name = ['S', 'R', 'E', 'S', 'E', 'T'] then bareLine .sreset args
  else if name = ['R', 'A', 'W'] then
    match args with
    | [.word w] => ((number w).bind asHalf).map .raw
    | _ => none
  else if name = ['T', 'I', 'C', 'K', 'S'] then
    match args with
    | [.word w] => (number w).map .ticks
    | _ => none
  else if name = ['R', 'X', 'B', 'Y', 'T', 'E', 'S'] then
    match args with
    | .openBracket :: ts => (bytesToBracket ts).map .rxBytes
    | _ => none
  else if name = ['R', 'X', 'F', 'R', 'A', 'M', 'E'] then (payloadOf args).map .rxFrame
  else none

/-- One line of a one-node script: none or one command (a blank or comment line has none); `none` where the text is no
line of R88 or R89. -/
def parseLine (cs : List Char) : Option (List ScriptLine) :=
  match tokens cs (.plain []) with
  | some [] => some []
  | some (.word name :: args) => (lineOf name args).map (fun l => [l])
  | _ => none

/-- One line of a two-node script (30_encoding.md R88, R89). -/
def parsePairLine (cs : List Char) : Option (List PairLine) :=
  match tokens cs (.plain []) with
  | some [] => some []
  | some [.word ['D', 'E', 'L', 'I', 'V', 'E', 'R'], .word ['A', '>', 'B']] => some [.deliver .b]
  | some [.word ['D', 'E', 'L', 'I', 'V', 'E', 'R'], .word ['B', '>', 'A']] => some [.deliver .a]
  | some (.word ['B', 'O', 'T', 'H'] :: .word name :: args) => (lineOf name args).map (fun l => [.both l])
  | some (.word ('A' :: '.' :: name) :: args) => (lineOf name args).map (fun l => [.on .a l])
  | some (.word ('B' :: '.' :: name) :: args) => (lineOf name args).map (fun l => [.on .b l])
  | _ => none

end Sys2Proof.Machine
end

