-- ==== Sys2Proof/Laws/Runs.lean ====
section
/-! SUPPORT. The small lemmas of runs: a run of two lists is one after the other, for one node and for a pair, and what
a run counts and accepts splits in the same way. Then how the inputs of a script line reach a pair. -/

namespace Sys2Proof.Machine

/-- Every presented input selects a rule (45_control.md R188: "Decoding is total"). -/
theorem selectInput_ne_nothing (inp : PortInput) : selectInput inp ≠ .nothing := by
  unfold selectInput
  split
  · simp
  · split <;> simp

@[simp] theorem countCommand_nil (i : Instr) : countCommand i [] = 0 := rfl

theorem countCommand_cons (i : Instr) (inp : PortInput) (is : List PortInput) :
    countCommand i (inp :: is) = (if selectInput inp = .command i then 1 else 0) + countCommand i is := by
  simp only [countCommand, List.countP_cons, decide_eq_true_eq]
  omega

@[simp] theorem nodeInputs_nil (n : NodeId) : nodeInputs n [] = [] := rfl

@[simp] theorem nodeInputs_deliver (n m : NodeId) (cs : List PairCmd) :
    nodeInputs n (.deliver m :: cs) = nodeInputs n cs := rfl

@[simp] theorem nodeInputs_node_self (n : NodeId) (inp : PortInput) (cs : List PairCmd) :
    nodeInputs n (.node n inp :: cs) = inp :: nodeInputs n cs := by
  simp [nodeInputs]

theorem runInputs_cons_next {s t : State} {inp : PortInput} (h : step (s.present inp) = .next t) (is : List PortInput) :
    runInputs (inp :: is) s = (runInputs is t).map (fun r => (r.1, t.out :: r.2)) := by
  simp only [runInputs, h]

theorem runInputs_append (is js : List PortInput) (s : State) :
    runInputs (is ++ js) s =
      (runInputs is s).bind (fun r => (runInputs js r.1).map (fun r' => (r'.1, r.2 ++ r'.2))) := by
  induction is generalizing s with
  | nil => simp [runInputs]
  | cons inp is ih =>
    simp only [List.cons_append, runInputs]
    cases step (s.present inp) with
    | next t => cases h : runInputs is t <;> simp [ih, h, Function.comp_def]
    | fault _ => rfl
    | refused _ => rfl

/-- A run that answers gives one output for each input. -/
theorem runInputs_length {is : List PortInput} {s t : State} {os : List StepOut} (h : runInputs is s = some (t, os)) :
    os.length = is.length := by
  induction is generalizing s t os with
  | nil => simp [runInputs] at h; simp [← h.2]
  | cons inp is ih =>
    cases hs : step (s.present inp) with
    | next u =>
      rw [runInputs_cons_next hs] at h
      obtain ⟨⟨v, ps⟩, hv, he⟩ := Option.map_eq_some_iff.1 h
      cases he
      simp [ih hv]
    | fault _ => simp [runInputs, hs] at h
    | refused _ => simp [runInputs, hs] at h

theorem acceptedPayloads_append (is js : List PortInput) {os ps : List StepOut} (h : os.length = is.length) :
    acceptedPayloads (is ++ js) (os ++ ps) = acceptedPayloads is os ++ acceptedPayloads js ps := by
  induction is generalizing os with
  | nil => simp_all [acceptedPayloads]
  | cons inp is ih =>
    cases os with
    | nil => simp at h
    | cons o os => simp [acceptedPayloads, ih (os := os) (by simpa using h)]

theorem pairRun_append (cs ds : List PairCmd) {p q : Pair} (h : pairRun cs p = .next q) :
    pairRun (cs ++ ds) p = pairRun ds q := by
  induction cs generalizing p with
  | nil => cases h; rfl
  | cons c cs ih =>
    simp only [pairRun, List.cons_append] at h ⊢
    cases hc : pairStep c p with
    | next r => rw [hc] at h; exact ih h
    | fault _ => rw [hc] at h; cases h
    | refused _ => rw [hc] at h; cases h

/-! ## The inputs of a script line in a pair -/

/-- With nothing under way every input is the node's own command (log 21). -/
theorem arrivals_nil (n : NodeId) (is : List PortInput) : arrivals n is [] = is.map (PairCmd.node n) := by
  induction is with
  | nil => rfl
  | cons inp is ih => simp [arrivals, arrival, ih]

/-- The operand of a word is read back from the input that presents it (30_encoding.md R78). -/
theorem selectInput_rxInput (b : Byte) : selectInput (rxInput b) = .command (.rxByte b) := by
  have h : decode (encode (.rxByte b)) = .ok (.rxByte b) := by decide +revert
  simp [selectInput, rxInput, PortInput.word, h]

/-- The bytes under way, in order, are all deliveries: `DELIVER` is the `RX` lines of its bytes (30_encoding.md R89). -/
theorem arrivals_rxInputs (n : NodeId) (bs rest : List Byte) :
    arrivals n (bs.map rxInput) (bs ++ rest) = List.replicate bs.length (.deliver n) := by
  induction bs with
  | nil => rfl
  | cons b bs ih => simp [arrivals, arrival, selectInput_rxInput, ih, List.replicate_succ]

/-- A delivery and a noise byte of the same value are the same step of the node; the delivery alone takes the byte off the
wire (60_exceptions.md R220). -/
theorem pairStep_deliverB_eq {p : Pair} {x : Byte} {rest : List Byte} (h : p.toB = x :: rest) :
    pairStep (.deliver .b) p = pairStep (.node .b (rxInput x)) { p with toB := rest } := by
  simp [pairStep, h]

theorem pairStep_deliverA_eq {p : Pair} {x : Byte} {rest : List Byte} (h : p.toA = x :: rest) :
    pairStep (.deliver .a) p = pairStep (.node .a (rxInput x)) { p with toA := rest } := by
  simp [pairStep, h]

end Sys2Proof.Machine
end

