-- ==== Sys2Proof/Tests/Slice0.lean ====
section
/-! SUPPORT. Tests: decoding of words written out from 30_encoding.md R76 to R79, the smoke tests of the checks, single
steps whose expected results are rows of spec/95_test_vectors.md, and for every obligation with hypotheses a state and
operands that meet them. -/

namespace Sys2Proof.Tests

open Sys2Proof.Machine

/-! ## Decoding (95_test_vectors.md C1.1 to C1.10; the words are opcode, zero, operand, bit by bit) -/

theorem test_decode_nop : decode 0b0000_0000_11111111#16 = .ok .nop := by decide
theorem test_decode_rxByte : decode 0b0001_0000_01100111#16 = .ok (.rxByte 0x67#8) := by decide
theorem test_decode_tick : decode 0b0010_0000_10101011#16 = .ok .tick := by decide
theorem test_decode_manual : decode 0b0011_0000_00000000#16 = .ok .manual := by decide
theorem test_decode_enqOut : decode 0b0100_0000_00000000#16 = .ok .enqOut := by decide
theorem test_decode_deqIn : decode 0b0101_0000_00000000#16 = .ok .deqIn := by decide
theorem test_decode_trySend : decode 0b0110_0000_00000000#16 = .ok .trySend := by decide
theorem test_decode_sreset : decode 0b1111_0000_10101010#16 = .ok .sreset := by decide
theorem test_decode_reserved_low : decode 0b0111_0000_00000000#16 = .error .reservedOpcode := by decide
theorem test_decode_reserved_high : decode 0b1110_0000_11111111#16 = .error .reservedOpcode := by decide
theorem test_decode_zero_field_rx : decode 0b0001_0001_00000000#16 = .error .zeroFieldNotZero := by decide
theorem test_decode_zero_field_sreset : decode 0b1111_1111_00000000#16 = .error .zeroFieldNotZero := by decide

theorem test_encode_rxByte : encode (.rxByte 0x6E#8) = 0x106E#16 := by decide
theorem test_encode_sreset : encode .sreset = 0xF000#16 := by decide
theorem test_decodeTableWord_rxByte : decodeTableWord 16 0x1041 = some (.rxByte 0x41#8) := by decide
theorem test_decodeTableWord_illegal : decodeTableWord 16 0x1100 = none := by decide

/-- No word matches two rows of the opcode map (30_encoding.md R77). -/
theorem test_opcode_rows_disjoint :
    opcodeRows.Pairwise (fun r q => r.pattern &&& (r.mask &&& q.mask) ≠ q.pattern &&& (r.mask &&& q.mask)) := by decide

/-! ## The checks: an ill-formed term for each (00_scope.md R7, R8). Every term of `Instr` is well formed. -/

theorem test_ref_legal : Config.ref.legal = true := by decide
theorem test_wf_no_payload : Config.legal { Config.ref with maxPayload := 0 } = false := by decide
theorem test_wf_payload_too_long : Config.legal { Config.ref with maxPayload := 65536 } = false := by decide
theorem test_wf_no_queue : Config.legal { Config.ref with queueCap := 0 } = false := by decide
theorem test_wf_no_sense : Config.legal { Config.ref with senseTicks := 0 } = false := by decide
theorem test_wf_no_phase : Config.legal { Config.ref with phaseTicks := 0 } = false := by decide
theorem test_wf_no_startup : Config.legal { Config.ref with startupTicks := 0 } = false := by decide
theorem test_wf_short_phase_is_legal : Config.legal { Config.ref with phaseTicks := 5 } = true := by decide
theorem test_agree_payload : Config.ref.agree { Config.ref with maxPayload := 9 } = false := by decide
theorem test_agree_phase : Config.ref.agree { Config.ref with phaseTicks := 9 } = false := by decide
theorem test_agree_sense : Config.ref.agree { Config.ref with senseTicks := 9 } = false := by decide
theorem test_agree_period : Config.ref.agree { Config.ref with tickPeriodMicros := 9 } = false := by decide
theorem test_wf_rxByte : (Instr.rxByte 0xFF#8).wf = true := by decide
theorem test_memory_wf_refuses_falling : Memory.wf [(1, 0#8), (0, 0#8)] = false := by decide
theorem test_memory_wf_refuses_repeat : Memory.wf [(1, 0#8), (1, 1#8)] = false := by decide

/-! ## Small states -/

/-- The reset state of REF. -/
def base : State := State.resetOf Config.ref

/-- "hi" in ASCII. -/
def hi : Payload := [0x68#8, 0x69#8]

/-- Role `Transmit` with "hi" queued. -/
def tx : State := { base with role := .transmit, outQ := [hi], phaseCnt := 6 }

/-- The last tick of a sense window is due. -/
def sensing : State := { tx with gate := .gSense, senseCnt := 4 }

/-- Role `Receive` at the start of a frame. -/
def rx : State := { base with role := .receive }

/-- 95_test_vectors.md R1.4: the "green" frame up to its last byte. -/
def rxLast : State :=
  { rx with rsPhase := .awaitPayload, rsLen := 5#16, rsCks := 0x11#8, rsPos := 4#16, occ := true
            rsBuf := [(0, 0x67#8), (1, 0x72#8), (2, 0x65#8), (3, 0x65#8)] }

/-- One field of the next state. -/
def after {α : Type} (o : Host.Outcome State Fault Refusal) (f : State → α) : Option α :=
  match o with
  | .next t => some (f t)
  | .fault _ => none
  | .refused _ => none

/-! ## Single steps (95_test_vectors.md) -/

theorem test_nop_keeps_state : after (exec .nop rxLast) (fun t => decide (t = rxLast)) = some true := by decide
/-- R1.1 -/
theorem test_rx_in_idle : after (exec (.rxByte 0x55#8) base) (fun t => (t.occ, t.rsPhase)) = some (true, .awaitLengthHigh) := by decide
/-- R1.4 -/
theorem test_rx_completes_green : after (exec (.rxByte 0x6E#8) rxLast) (fun t => (t.inQ, t.rsPos)) =
    some ([.payload [0x67#8, 0x72#8, 0x65#8, 0x65#8, 0x6E#8]], 0#16) := by decide
/-- T1.1, tick 10 -/
theorem test_tick_startup_expires : after (exec .tick { base with startupCnt := 9 }) (fun t => (t.role, t.out.eventCodes)) =
    some (.receive, [0x05#8]) := by decide
/-- G1.1 with "hi": table E1.3 -/
theorem test_tick_sends : after (exec .tick sensing) (fun t => (t.out.wireOut, t.out.eventCodes)) =
    some ([0x00#8, 0x02#8, 0xD1#8, 0x68#8, 0x69#8], [0x01#8]) := by decide
/-- G1.9 -/
theorem test_manual_cancels_window : after (exec .manual sensing) (fun t => (t.outQ, t.out.eventCodes, t.gate)) =
    some ([hi], [0x05#8], .gIdle) := by decide
/-- T1.2 -/
theorem test_manual_from_idle : after (exec .manual base) (fun t => (t.role, t.out.eventCodes)) =
    some (.transmit, [0x04#8]) := by decide
/-- Q1.4: nine bytes are refused. -/
theorem test_enq_oversize : after (exec .enqOut { base with msgIn := { len := 9#16, data := [] } })
    (fun t => (t.out.ack, t.out.eventCodes)) = some (false, [0x08#8]) := by decide
/-- Q1.1 with "hi" -/
theorem test_enq_appends : after (exec .enqOut { tx with msgIn := MsgIn.ofPayload hi }) (fun t => t.outQ) =
    some [hi, hi] := by decide
/-- Q2.2 -/
theorem test_deq_reports_token : after (exec .deqIn { rx with inQ := [.errChecksum, .payload []] })
    (fun t => (t.inQ, t.out.msgOut, t.out.eventCodes)) = some ([.payload []], some .errChecksum, [0x03#8]) := by decide
/-- Q2.4 -/
theorem test_deq_in_transmit : after (exec .deqIn { tx with inQ := [.payload hi] }) (fun t => (t.inQ, t.out.ack)) =
    some ([.payload hi], false) := by decide
theorem test_try_opens_window : after (exec .trySend { tx with occ := true, senseCnt := 3 })
    (fun t => (t.gate, t.senseCnt, t.occ, t.outQ)) = some (.gSense, 0, false, [hi]) := by decide
/-- G1.6 -/
theorem test_try_in_window : after (exec .trySend sensing) (fun t => (t.senseCnt, t.out.ack)) = some (4, false) := by decide
/-- C1.9 -/
theorem test_sreset : after (exec .sreset rxLast) (fun t => (t.role, t.rsPhase, t.rsLen, t.occ)) =
    some (.idle, .awaitLengthHigh, 0#16, false) := by decide
/-- R1.7 -/
theorem test_rx_collides : after (exec (.rxByte 0x00#8) sensing) (fun t => (t.role, t.outQ, t.out.eventCodes)) =
    some (.receive, [], [0x02#8, 0x05#8]) := by decide
/-- C1.7: the step on an illegal word; `occ` is not set. -/
theorem test_illegal_word_step : after (step (rx.presentWord 0x1100#16)) (fun t => (t.occ, t.out.ack, t.out.eventCodes)) =
    some (false, false, [0x09#8]) := by decide
theorem test_fetch_word_step : after (step (State.reset.withFetchWord 16 0x1055)) (fun t => (t.occ, t.pending)) =
    some (true, []) := by decide
/-- E1.5, E1.7 -/
theorem test_encode_green : encodeFrame [0x67#8, 0x72#8, 0x65#8, 0x65#8, 0x6E#8] =
    [0x00#8, 0x05#8, 0x11#8, 0x67#8, 0x72#8, 0x65#8, 0x65#8, 0x6E#8] := by decide
theorem test_cks_wraps : cks [0x80#8, 0x80#8] = 0x00#8 := by decide
/-- E1.10: the high length byte. -/
theorem test_encode_256 : (encodeFrame (List.replicate 256 0x01#8)).take 2 = [0x01#8, 0x00#8] := by
  simp only [encodeFrame, List.length_replicate, List.cons_append, List.take_succ_cons, List.take_zero]
  decide
/-- D3.5: the byte after a shortened frame is taken as a length byte. -/
theorem test_misaligned : (feedBlock [0x00#8, 0x04#8, 0x11#8, 0x67#8, 0x72#8, 0x65#8, 0x65#8, 0x6E#8] rx).1 = [.checksumError] ∧
    (feedBlock [0x00#8, 0x04#8, 0x11#8, 0x67#8, 0x72#8, 0x65#8, 0x65#8, 0x6E#8] rx).2.rsLen = 0x6E00#16 := by decide
/-- The script lines of P9 in their text form (30_encoding.md R88). -/
theorem test_script_raw : parseLine ['R', 'A', 'W', ' ', '0', 'x', 'E', '0', 'F', 'F', ' ', ';'] = some [.raw 0xE0FF#16] := by decide
theorem test_script_rx_char : parseLine ['R', 'X', ' ', '\'', 'A', '\''] = some [.rx 0x41#8] := by decide
/-- R88 gives `RX` two hexadecimal digits. -/
theorem test_script_rx_one_digit : parseLine ['R', 'X', ' ', '0', 'x', '5'] = none := by decide
theorem test_script_rx_hex : parseLine ['R', 'X', ' ', '0', 'x', '6', 'E'] = some [.rx 0x6E#8] := by decide
/-- P10: `B.RX 0x00` and `B.RXBYTES [02 D1]` deliver bytes of A's frame; another byte is noise. -/
theorem test_script_rx_delivers :
    PairLine.commands { a := tx, b := tx, toA := [], toB := [0x00#8, 0x02#8, 0xD1#8] } (.on .b (.rxBytes [0x00#8, 0x02#8])) =
      [.deliver .b, .deliver .b] ∧
    PairLine.commands { a := tx, b := tx, toA := [], toB := [0x00#8] } (.on .b (.rx 0x55#8)) =
      [.node .b (rxInput 0x55#8)] := by decide
theorem test_script_enq_len : parseLine ['E', 'N', 'Q', ' ', 'l', 'e', 'n', '=', '9'] = some [.enqLen 9#16] := by decide
theorem test_script_both : parsePairLine ['B', 'O', 'T', 'H', ' ', 'T', 'I', 'C', 'K', 'S', ' ', '5'] = some [.both (.ticks 5)] := by decide

/-! ## Witnesses: for each obligation with hypotheses, a state and operands that meet them together, one for each
clause, at a boundary where it has one -/

/-- The witnesses have the invariants. -/
theorem witness_inv : base.Inv ∧ tx.Inv ∧ sensing.Inv ∧ rx.Inv ∧ rxLast.Inv :=
  ⟨by decide, by decide, by decide, by decide, by decide⟩

theorem witness_DecodeReadsBackEncode : (Instr.rxByte 0xFF#8).wf = true := by decide
theorem witness_DecoderFollowsOpcodeMap :
    (∀ b, Instr.tick ≠ .rxByte b) ∧ decode (0x20#8 ++ 0xAB#8) = .ok .tick := ⟨by simp, by decide⟩
theorem witness_StepRunsTheDecodedCommand :
    (base.present (cmdInput .tick)).pending = cmdInput .tick :: [] ∧ (cmdInput .tick).rst = false ∧
    decode (cmdInput .tick).cmd = .ok .tick ∧ Instr.tick.wf = true := by decide
theorem witness_StepWithoutCommandChangesNothing : base.pending = [] := by decide
theorem witness_ResetInputDoesWhatSresetDoes :
    (rxLast.present { cmdInput .tick with rst := true }).pending = { cmdInput .tick with rst := true } :: [] ∧
    ({ cmdInput .tick with rst := true } : PortInput).rst = true := by decide
theorem witness_IllegalWordChangesNothing :
    (base.presentWord 0x7000#16).pending = PortInput.word 0x7000#16 noMessage :: [] ∧
    (PortInput.word 0x7000#16 noMessage).rst = false ∧
    (7 ≤ (BitVec.extractLsb' 12 4 0x7000#16).toNat ∧ (BitVec.extractLsb' 12 4 0x7000#16).toNat ≤ 14) := by decide
theorem witness_IllegalWord_zeroField :
    (base.presentWord 0x1100#16).pending = PortInput.word 0x1100#16 noMessage :: [] ∧
    BitVec.extractLsb' 8 4 0x1100#16 ≠ 0#4 := by decide
theorem witness_NoStepChangesTheParameters : ∃ t, step (base.present (cmdInput .tick)) = .next t := ⟨_, rfl⟩
theorem witness_TickInIdle_counts : base.role = .idle ∧ base.startupCnt + 1 ≠ base.cfg.startupTicks := by decide
theorem witness_TickInIdle_expires :
    ({ base with startupCnt := 9 } : State).role = .idle ∧
    ({ base with startupCnt := 9 } : State).startupCnt + 1 = base.cfg.startupTicks := by decide
theorem witness_TickEndsThePhase_receive :
    ({ rx with phaseCnt := 19 } : State).phaseCnt + 1 = rx.cfg.phaseTicks ∧ rx.role = .receive := by decide
theorem witness_TickEndsThePhase_transmit :
    ({ sensing with phaseCnt := 19 } : State).phaseCnt + 1 = tx.cfg.phaseTicks ∧ sensing.role = .transmit := by decide
theorem witness_TickCounts_phase :
    rx.role ≠ .idle ∧ ({ rx with phaseCnt := 18 } : State).phaseCnt + 1 ≠ rx.cfg.phaseTicks ∧
    ¬ (rx.role = .transmit ∧ rx.gate = .gSense) := by decide
theorem witness_TickCounts_window :
    sensing.role = .transmit ∧ sensing.gate = .gSense ∧ sensing.phaseCnt + 1 ≠ sensing.cfg.phaseTicks ∧
    ({ sensing with senseCnt := 3 } : State).senseCnt + 1 ≠ sensing.cfg.senseTicks := by decide
theorem witness_SenseWindowEnds_clear :
    sensing.role = .transmit ∧ sensing.gate = .gSense ∧ sensing.phaseCnt + 1 ≠ sensing.cfg.phaseTicks ∧
    sensing.senseCnt + 1 = sensing.cfg.senseTicks ∧ sensing.outQ = hi :: [] ∧ sensing.occ = false ∧
    hi.length ≤ sensing.cfg.maxPayload := by decide
theorem witness_SenseWindowEnds_occupied :
    ({ sensing with occ := true } : State).occ = true ∧ sensing.role = .transmit ∧ sensing.gate = .gSense ∧
    sensing.phaseCnt + 1 ≠ sensing.cfg.phaseTicks ∧ sensing.senseCnt + 1 = sensing.cfg.senseTicks ∧
    sensing.outQ = hi :: [] := by decide
theorem witness_TickStops_popEmpty :
    after (exec .tick { sensing with outQ := [] }) (fun _ => ()) = none ∧
    exec .tick { sensing with outQ := [] } = .fault .popEmpty := ⟨by decide, rfl⟩
theorem witness_TickStops_oversize :
    exec .tick { sensing with outQ := [List.replicate 9 0#8] } = .refused .encodeOversize := rfl
/-- A state that meets neither stop condition although its window ends: the longest payload REF has room for. -/
theorem witness_TickStops_nowhereElse :
    ({ sensing with outQ := [List.replicate 8 0#8] } : State).senseCnt + 1 = sensing.cfg.senseTicks ∧
    ({ sensing with outQ := [List.replicate 8 0#8] } : State).outQ ≠ [] ∧
    ¬ sensing.cfg.maxPayload < (List.replicate 8 0#8 : Payload).length := by decide
theorem witness_ManualTogglesTheRole : base.role = .idle ∧ sensing.role = .transmit ∧ rx.role = .receive := by decide
theorem witness_RxByteInIdleOnlyMarks : base.role = .idle := by decide
theorem witness_RxByteInTransmit_noWindow : tx.role = .transmit ∧ tx.gate = .gIdle := by decide
theorem witness_RxByteInTransmit_window :
    sensing.role = .transmit ∧ sensing.gate = .gSense ∧ sensing.outQ = hi :: [] := by decide
theorem witness_RxByteStoresTheLengthBytes :
    rx.role = .receive ∧ rx.rsPhase = .awaitLengthHigh ∧
    ({ rx with rsPhase := .awaitLengthLow } : State).rsPhase = .awaitLengthLow := by decide
theorem witness_RxByteTakesTheChecksumByte :
    ({ rx with rsPhase := .awaitChecksum } : State).rsPhase = .awaitChecksum ∧ rx.rsLen = 0#16 ∧
    rx.inQ.length ≠ rx.cfg.queueCap ∧ ({ rx with rsLen := 1#16 } : State).rsLen ≠ 0#16 ∧
    ({ rx with inQ := [.errChecksum, .errChecksum] } : State).inQ.length = rx.cfg.queueCap := by decide
/-- Position 7 is the last the buffer reaches under REF, position 8 the first that is dropped. -/
theorem witness_RxByteStoresAPayloadByte :
    ({ rxLast with rsLen := 10#16, rsPos := 7#16 } : State).rsPos.toNat + 1 < (10#16).toNat ∧
    (7#16).toNat < rxLast.cfg.rxBufCap ∧ ¬ (8#16).toNat < rxLast.cfg.rxBufCap ∧ rxLast.role = .receive ∧
    rxLast.rsPhase = .awaitPayload ∧ ({ rxLast with rsLen := 10#16, rsPos := 8#16 } : State).rsPos.toNat + 1 < (10#16).toNat := by
  decide
theorem witness_RxByteCompletesTheFrame :
    rxLast.role = .receive ∧ rxLast.rsPhase = .awaitPayload ∧ rxLast.rsPos.toNat + 1 = rxLast.rsLen.toNat ∧
    ({ rxLast with rsLen := 9#16, rsPos := 8#16 } : State).rsPos.toNat + 1 = (9#16).toNat := by decide
theorem witness_OfferedPayload : (2#16).toNat ≤ [0x68#8, 0x69#8, 0x70#8].length := by decide
/-- `len = MAX_PAYLOAD` is accepted, one more is not. -/
theorem witness_EnqOutAppendsOrRefuses :
    base.cfg.maxPayload < (9#16).toNat ∧ (8#16).toNat ≤ base.cfg.maxPayload ∧ base.outQ.length ≠ base.cfg.queueCap ∧
    ({ base with outQ := [hi, hi] } : State).outQ.length = base.cfg.queueCap := by decide
theorem witness_DeqInHandsOverTheOldestItem :
    rx.role = .receive ∧ ({ rx with inQ := [.errChecksum] } : State).inQ = .errChecksum :: [] ∧ rx.inQ = [] ∧
    tx.role ≠ .receive := by decide
theorem witness_TrySend :
    tx.role = .transmit ∧ tx.gate = .gIdle ∧ tx.outQ ≠ [] ∧ rx.role ≠ .transmit ∧ sensing.gate = .gSense ∧
    ({ tx with outQ := [] } : State).outQ = [] := by decide
theorem witness_ChecksumIsTheByteSum : hi.Perm [0x69#8, 0x68#8] := by decide
theorem witness_FrameLayoutIsInjective : hi.length ≤ 65535 ∧ frameOf Config.ref hi = some (encodeFrame hi) := by decide
theorem witness_FrameRoundTrip :
    rx.cfg.legal = true ∧ (List.replicate 8 0xFF#8).length ≤ rx.cfg.maxPayload ∧ rx.rsPhase = .awaitLengthHigh := by decide
theorem witness_SinglePayloadCorruptionIsDetected :
    rx.cfg.legal = true ∧ hi.length ≤ rx.cfg.maxPayload ∧ rx.rsPhase = .awaitLengthHigh ∧ 1 < hi.length ∧
    hi[1]? ≠ some 0x6A#8 := by decide
theorem witness_OversizeFrameIsJudgedByItsPrefix :
    rx.cfg.legal = true ∧ rx.rsPhase = .awaitLengthHigh ∧
    (List.replicate 9 0x01#8).length = 256 * (0x00#8).toNat + (0x09#8).toNat ∧
    rx.cfg.rxBufCap < (List.replicate 9 0x01#8).length := by decide
theorem witness_OnlyListedCommandsWriteEachElement : ∃ t, exec .manual sensing = .next t ∧ t.role ≠ sensing.role :=
  ⟨_, rfl, by decide⟩
theorem witness_OnlyListed_outQ :
    (∃ t, exec .tick sensing = .next t ∧ t.outQ ≠ sensing.outQ) ∧
    (∃ t, exec .enqOut tx = .next t ∧ t.outQ ≠ tx.outQ) ∧
    (∃ t, exec (.rxByte 0#8) sensing = .next t ∧ t.outQ ≠ sensing.outQ) :=
  ⟨⟨_, rfl, by decide⟩, ⟨_, rfl, by decide⟩, ⟨_, rfl, by decide⟩⟩
theorem witness_OccupancyFlagWriters :
    (∃ t, exec (.rxByte 0#8) rx = .next t ∧ t.occ = true) ∧
    (∃ t, exec .trySend { tx with occ := true } = .next t ∧ t.out.ack = true ∧ t.occ = false) ∧
    (∃ t, exec .manual { rx with occ := true } = .next t ∧ madeTransition t ∧ t.occ = false) ∧
    (∃ t, exec .nop { rx with occ := true } = .next t ∧ ¬ madeTransition t ∧ t.occ = true) :=
  ⟨⟨_, rfl, by decide⟩, ⟨_, rfl, by decide, by decide⟩, ⟨_, rfl, by decide, by decide⟩, ⟨_, rfl, by decide, by decide⟩⟩
theorem witness_RoleFollowsTheTransitionTable : ∃ t, exec .tick { rx with phaseCnt := 19 } = .next t := ⟨_, rfl⟩
theorem witness_TransitionLeavesTheReassemblerReset :
    rxLast.Inv ∧ ∃ t, exec .manual rxLast = .next t ∧ madeTransition t := ⟨by decide, _, rfl, by decide⟩
theorem witness_AtMostTwoEventsInOrder :
    ∃ t, stepInput (rxInput 0#8) tx = .next t ∧ t.out.events.length = 2 := ⟨_, rfl, by decide⟩
theorem witness_WireCarriesOnlyWholeFrames :
    ∃ t, stepInput (cmdInput .tick) sensing = .next t ∧ t.out.wireOut ≠ [] :=
  ⟨_, rfl, by decide⟩
theorem witness_AckIsZeroExactlyWhenRefused : ∃ t, exec .trySend rx = .next t ∧ t.out.ack = false := ⟨_, rfl, by decide⟩
theorem witness_InboundQueueIsFirstInFirstOut :
    Instr.deqIn ≠ .sreset ∧ ∃ t, exec .deqIn { rx with inQ := [.errChecksum] } = .next t := ⟨by decide, _, rfl⟩
theorem witness_InvariantHoldsAtReset :
    Config.legal { Config.ref with maxPayload := 65535 } = true ∧ Config.legal { Config.ref with maxPayload := 1 } = true := by
  decide
theorem witness_EveryStepKeepsTheInvariant :
    (sensing.present (cmdInput .tick)).Inv ∧ ∃ t, step (sensing.present (cmdInput .tick)) = .next t := ⟨by decide, _, rfl⟩
theorem witness_ReachableStates :
    Config.ref.legal = true ∧ ∃ t, step (base.present (cmdInput .manual)) = .next t ∧ Reachable Config.ref t :=
  ⟨by decide, _, rfl, Reachable.next (cmdInput .manual) Reachable.reset rfl⟩
theorem witness_NoStepStopsTheBlock : (sensing.present (rxInput 0#8)).Inv := by decide
theorem witness_TickNeverReportsACollision :
    Config.ref.legal = true ∧ Reachable Config.ref base ∧ ∃ t, exec .tick base = .next t :=
  ⟨by decide, Reachable.reset, _, rfl⟩
theorem witness_NothingIsSentIfThePhaseIsTooShort :
    Config.legal { Config.ref with phaseTicks := 5 } = true ∧
    ∃ r, runInputs [cmdInput .manual] (State.resetOf { Config.ref with phaseTicks := 5 }) = some r := ⟨by decide, _, rfl⟩
/-- The four ticks of a window of REF before its last, with an `ENQ_OUT`, a `DEQ_IN`, a second `TRY_SEND` and an illegal
word between them. -/
def window : List PortInput :=
  [cmdInput .tick, enqInput hi, cmdInput .tick, cmdInput .deqIn, cmdInput .trySend, cmdInput .tick,
   PortInput.word 0x7000#16 noMessage, cmdInput .tick]
/-- The latest `TRY_SEND` of a phase that can still succeed (95_test_vectors.md G1.12). -/
theorem witness_ClearSenseWindowSends :
    ({ tx with phaseCnt := 14 } : State).Inv ∧ tx.role = .transmit ∧ tx.gate = .gIdle ∧ tx.outQ = hi :: [] ∧
    (∀ inp ∈ window, (selectInput inp).undisturbing = true) ∧ countCommand .tick window + 1 = tx.cfg.senseTicks ∧
    14 + tx.cfg.senseTicks < tx.cfg.phaseTicks := by decide
theorem witness_ClearSenseWindow_onlyTicks :
    (∀ inp ∈ List.replicate 4 (cmdInput .tick), selectInput inp = .command .tick) ∧
    countCommand .tick (List.replicate 4 (cmdInput .tick)) + 1 = tx.cfg.senseTicks := by decide
theorem witness_PhaseLastsExactlyPhaseTicks :
    rx.Inv ∧ rx.role = roleOf .receive ∧ rx.phaseCnt = 0 ∧ 19 < rx.cfg.phaseTicks := by decide
theorem witness_StartupFallback : Config.ref.legal = true ∧ 9 < Config.ref.startupTicks := by decide
theorem witness_FramesLeaveInTheOrderAccepted :
    ∃ t os, runInputs [cmdInput .tick] sensing = some (t, os) ∧ framesOf os = [encodeFrame hi] := ⟨_, _, rfl, by decide⟩
/-- Two states with different stale contents. -/
theorem witness_StaleReassemblyContents :
    AgreeOnLive (rx.present (rxInput 0#8))
      (({ rx with rsLen := 7#16, rsCks := 9#8, rsBuf := [(0, 1#8)] } : State).present (rxInput 0#8)) ∧
    ∃ t, step (rx.present (rxInput 0#8)) = .next t := ⟨by decide, _, rfl⟩
theorem witness_WireDelivers :
    ∃ q, pairStep (.deliver .b) { a := sensing, b := rx, toA := [], toB := [0#8, 2#8] } = .next q := ⟨_, rfl⟩
theorem witness_MessageCrossesTheWire :
    sensing.Inv ∧ rx.Inv ∧ sensing.cfg.agree rx.cfg = true ∧ sensing.role = .transmit ∧ sensing.gate = .gSense ∧
    sensing.senseCnt + 1 = sensing.cfg.senseTicks ∧ sensing.phaseCnt + 1 ≠ sensing.cfg.phaseTicks ∧
    sensing.outQ = hi :: [] ∧ rx.role = .receive ∧ rx.rsPhase = .awaitLengthHigh ∧
    rx.inQ.length < rx.cfg.queueCap :=
  ⟨by decide, by decide, by decide⟩
/-- Commands of B between the bytes of the frame of "hi", in the last tick before B's phase would end. -/
theorem witness_MessageCrosses_commandsBetween :
    let cs : List PairCmd := [.deliver .b, .node .b (cmdInput .tick), .deliver .b, .deliver .b, .node .b (cmdInput .deqIn),
      .deliver .b]
    (∀ c ∈ cs, c = .deliver .b ∨
      ∃ inp ∈ [cmdInput .tick, cmdInput .deqIn], c = .node .b inp ∧ (selectInput inp).undisturbing = true) ∧
    cs.count (.deliver .b) = hi.length + 2 ∧ countCommand .tick (nodeInputs .b cs) = 1 ∧
    ({ rx with phaseCnt := 18, inQ := [.errChecksum] } : State).Inv ∧ 18 + 1 < rx.cfg.phaseTicks := by
  decide
theorem witness_TwoWindows :
    sensing.Inv ∧ ({ sensing with senseCnt := 2 } : State).Inv ∧ sensing.role = .transmit ∧ sensing.gate = .gSense ∧
    sensing.senseCnt + 1 = sensing.cfg.senseTicks ∧ sensing.phaseCnt + 1 ≠ sensing.cfg.phaseTicks ∧
    sensing.outQ = hi :: [] :=
  ⟨by decide, by decide, by decide⟩
theorem witness_OppositeNodesStayOpposite :
    ({ tx with phaseCnt := 19 } : State).Inv ∧ ({ rx with phaseCnt := 19 } : State).Inv ∧
    tx.cfg.phaseTicks = rx.cfg.phaseTicks ∧ tx.role = roleOf .transmit ∧ rx.role = roleOf (otherRole .transmit) :=
  ⟨by decide, by decide, by decide⟩

end Sys2Proof.Tests
end

/-! SUPPORT. The statements of spec/00_scope.md: the step runs the presented command (R6), no step writes a parameter
(R7), a node whose phase is too short never sends (R8), and which commands answer `ack = 0` (R13). First the layer they
share: the cases in which a step and each command answer a next state, and what the shared operations leave of the
parameters, the counters and the outputs. -/

namespace Sys2Proof.Machine

/-! ## The cases of a step -/

/-- An input without reset whose word decodes selects its command (45_control.md R188). -/
theorem selectInput_eq_command {inp : PortInput} {i : Instr} (hr : inp.rst = false) (hd : decode inp.cmd = .ok i) :
    selectInput inp = .command i := by
  simp [selectInput, hr, hd]

/-- The cases in which a step with an input presented answers a next state (45_control.md R188). -/
theorem step_cons_next {s t : State} {inp : PortInput} {rest : List PortInput} (hp : s.pending = inp :: rest)
    (h : step s = .next t) :
    (selectInput inp = .reset ∧ t = resetNode { s with pending := rest, msgIn := inp.msgIn }) ∨
    (∃ e, selectInput inp = .illegal e ∧ t = illegalCommand { s with pending := rest, msgIn := inp.msgIn }) ∨
    (∃ i, selectInput inp = .command i ∧ exec i { s with pending := rest, msgIn := inp.msgIn } = .next t) := by
  rw [step_cons hp] at h
  cases hi : selectInput inp with
  | nothing => exact absurd hi (selectInput_ne_nothing inp)
  | reset => rw [hi] at h; cases h; exact .inl ⟨rfl, rfl⟩
  | illegal e => rw [hi] at h; cases h; exact .inr (.inl ⟨e, rfl, rfl⟩)
  | command i => rw [hi] at h; exact .inr (.inr ⟨i, rfl, h⟩)

/-- An induction over runs, packaged once: a property of states that every step keeps, and a property of the outputs that
every step from such a state has, hold at the end of every run and of all its outputs. -/
theorem runInputs_induct {P : State → Prop} {Q : StepOut → Prop}
    (hstep : ∀ {s t inp}, P s → step (s.present inp) = .next t → P t ∧ Q t.out)
    {is : List PortInput} {s t : State} {os : List StepOut} (hs : P s) (h : runInputs is s = some (t, os)) :
    P t ∧ ∀ o ∈ os, Q o := by
  induction is generalizing s os with
  | nil => cases h; exact ⟨hs, by simp⟩
  | cons inp is ih =>
    cases hu : step (s.present inp) with
    | next u =>
      rw [runInputs_cons_next hu] at h
      obtain ⟨⟨v, ps⟩, hrun, heq⟩ := Option.map_eq_some_iff.1 h
      cases heq
      obtain ⟨hPu, hQu⟩ := hstep hs hu
      obtain ⟨hPt, hQps⟩ := ih hPu hrun
      exact ⟨hPt, List.forall_mem_cons.2 ⟨hQu, hQps⟩⟩
    | fault _ => simp [runInputs, hu] at h
    | refused _ => simp [runInputs, hu] at h

/-! ## What the shared operations leave -/

@[simp] theorem transition_cfg (r : ActiveRole) (c : Cause) (s : State) : (transition r c s).cfg = s.cfg := by
  rw [transition_eq]
@[simp] theorem transition_phaseCnt (r : ActiveRole) (c : Cause) (s : State) : (transition r c s).phaseCnt = 0 := by
  rw [transition_eq]
@[simp] theorem transition_out (r : ActiveRole) (c : Cause) (s : State) :
    (transition r c s).out = { s.out with events := s.out.events ++ transitionEvents r c } := by
  rw [transition_eq]

/-- After a transition no sense window is open, where only role `Transmit` can have one (10_state.md R32). -/
theorem transition_gate_idle {s : State} (hg : s.gate = .gSense → s.role = .transmit) (r : ActiveRole) (c : Cause) :
    (transition r c s).gate = .gIdle := by
  rw [transition_eq]
  dsimp only
  split
  · rfl
  next hclosed =>
    cases h : s.gate with
    | gIdle => rfl
    | gSense => exact absurd ⟨hg h, h⟩ hclosed

@[simp] theorem feedByte_cfg (b : Byte) (s : State) : (feedByte b s).2.cfg = s.cfg := by
  rw [feedByte_frame]
@[simp] theorem feedByte_role (b : Byte) (s : State) : (feedByte b s).2.role = s.role := by
  rw [feedByte_frame]
@[simp] theorem feedByte_phaseCnt (b : Byte) (s : State) : (feedByte b s).2.phaseCnt = s.phaseCnt := by
  rw [feedByte_frame]
@[simp] theorem feedByte_gate (b : Byte) (s : State) : (feedByte b s).2.gate = s.gate := by
  rw [feedByte_frame]
@[simp] theorem feedByte_senseCnt (b : Byte) (s : State) : (feedByte b s).2.senseCnt = s.senseCnt := by
  rw [feedByte_frame]
@[simp] theorem feedByte_out (b : Byte) (s : State) : (feedByte b s).2.out = s.out := by
  rw [feedByte_frame]

/-- The hand-off of a reassembled frame writes `in_q` and the outputs only (41_reassembler.md R121). -/
theorem handOff_frame (r : FeedResult × State) :
    handOff r = { r.2 with inQ := (handOff r).inQ, out := (handOff r).out } := by
  rw [handOff_eq]

/-- The only output of a hand-off is an event that reports a full inbound queue (44_queues.md R172). -/
theorem handOff_out (r : FeedResult × State) :
    (handOff r).out = r.2.out ∨ (handOff r).out = { r.2.out with events := r.2.out.events ++ [.queueFullIn] } := by
  rw [handOff_eq]
  dsimp only
  split
  · exact .inr rfl
  · exact .inl rfl

/-! ## The cases of a command -/

/-- The cases of `RX_BYTE`, one for each role (41_reassembler.md R121 to R123). -/
theorem execRxByte_next {b : Byte} {s t : State} (h : execRxByte b s = .next t) :
    (s.role = .idle ∧ t = { s with occ := true, out := StepOut.quiet }) ∨
    (s.role = .transmit ∧ t = transition .receive .collision { s with occ := true, out := StepOut.quiet }) ∨
    (s.role = .receive ∧ t = handOff (feedByte b { s with occ := true, out := StepOut.quiet })) := by
  rcases Role.cases s.role with hr | hr | hr
  · rw [execRxByte_idle b hr] at h; cases h; exact .inl ⟨hr, rfl⟩
  · rw [execRxByte_transmit b hr] at h; cases h; exact .inr (.inl ⟨hr, rfl⟩)
  · rw [execRxByte_receive b hr] at h; cases h; exact .inr (.inr ⟨hr, rfl⟩)

/-- The cases of `DEQ_IN`: refused, or the oldest item handed over (44_queues.md R175). -/
theorem execDeqIn_next {s t : State} (h : execDeqIn s = .next t) :
    ((s.role ≠ .receive ∨ s.inQ = []) ∧ t = { s with out := { StepOut.quiet with ack := false } }) ∨
    (∃ x q, s.role = .receive ∧ s.inQ = x :: q ∧
      t = { s with
            inQ := q
            out := { StepOut.quiet with
                     msgOut := some x
                     events := if x = .errChecksum then [.checksumError] else [] } }) := by
  by_cases hd : s.role ≠ .receive ∨ s.inQ = []
  · rw [execDeqIn_refused hd] at h; cases h; exact .inl ⟨hd, rfl⟩
  · obtain ⟨hr, hq⟩ := not_or.1 hd
    obtain ⟨x, q, hxq⟩ := List.exists_cons_of_ne_nil hq
    rw [execDeqIn_takes (not_not.1 hr) hxq] at h
    cases h
    exact .inr ⟨x, q, not_not.1 hr, hxq, rfl⟩

/-- The cases of `TRY_SEND` (42_occupancy_gate.md R134, R135). -/
theorem execTrySend_next {s t : State} (h : execTrySend s = .next t) :
    ((s.role = .transmit ∧ s.gate = .gIdle ∧ s.outQ ≠ []) ∧
      t = { s with occ := false, gate := .gSense, senseCnt := 0, out := StepOut.quiet }) ∨
    (¬ (s.role = .transmit ∧ s.gate = .gIdle ∧ s.outQ ≠ []) ∧
      t = { s with out := { StepOut.quiet with ack := false } }) := by
  rw [execTrySend_eq] at h
  split at h <;> cases h
  · exact .inl ⟨‹_›, rfl⟩
  · exact .inr ⟨‹_›, rfl⟩

/-- The cases of `ENQ_OUT`: refused with one event, or appended (44_queues.md R174). -/
theorem execEnqOut_next {s t : State} (h : execEnqOut s = .next t) :
    ((s.cfg.maxPayload < s.msgIn.len.toNat ∨ s.outQ.length = s.cfg.queueCap) ∧
      ∃ e, (e = .oversizePayload ∨ e = .queueFullOut) ∧
        t = { s with out := { StepOut.quiet with ack := false, events := [e] } }) ∨
    (¬ (s.cfg.maxPayload < s.msgIn.len.toNat ∨ s.outQ.length = s.cfg.queueCap) ∧
      t = { s with outQ := s.outQ ++ [s.msgIn.offered], out := StepOut.quiet }) := by
  rw [execEnqOut_eq] at h
  split at h
  next hsize => cases h; exact .inl ⟨.inl hsize, _, .inl rfl, rfl⟩
  next hsize =>
    split at h
    next hfull => cases h; exact .inl ⟨.inr hfull, _, .inr rfl, rfl⟩
    next hfull => cases h; exact .inr ⟨by simp [hsize, hfull], rfl⟩

/-! ## A step runs the presented command -/

/-- Settles O5: `step` picks its rule by the head of `pending` alone. -/
theorem stepRunsTheDecodedCommand : Obligations.StepRunsTheDecodedCommand := by
  intro s inp rest i hp hr hd _
  rw [step_cons hp, selectInput_eq_command hr hd]

/-- Settles O6. -/
theorem stepWithoutCommandChangesNothing : Obligations.StepWithoutCommandChangesNothing :=
  fun _ hp => step_nothing hp

/-! ## The parameters -/

theorem execTick_cfg {s t : State} (h : execTick s = .next t) : t.cfg = s.cfg := by
  rcases execTick_next h with ⟨_, _, rfl⟩ | ⟨_, _, rfl⟩ | ⟨r, _, _, rfl⟩ | ⟨_, _, _, rfl⟩ | ⟨_, _, _, rfl⟩ |
    ⟨_, _, _, hres⟩
  · exact transition_cfg _ _ _
  · rfl
  · exact transition_cfg _ _ _
  · rfl
  · rfl
  · obtain ⟨p, q, _, ⟨_, rfl⟩ | ⟨_, _, rfl⟩⟩ := resolve_next hres <;> rfl

theorem execRxByte_cfg {b : Byte} {s t : State} (h : execRxByte b s = .next t) : t.cfg = s.cfg := by
  rcases execRxByte_next h with ⟨_, rfl⟩ | ⟨_, rfl⟩ | ⟨_, rfl⟩
  · rfl
  · exact transition_cfg _ _ _
  · rw [handOff_frame]; exact feedByte_cfg _ _

/-- No command writes a parameter (00_scope.md R7). -/
theorem exec_cfg {i : Instr} {s t : State} (h : exec i s = .next t) : t.cfg = s.cfg := by
  cases i with
  | nop => cases h; rfl
  | rxByte b => exact execRxByte_cfg h
  | tick => exact execTick_cfg h
  | manual => cases h; exact transition_cfg _ _ _
  | enqOut => rcases execEnqOut_next h with ⟨_, e, _, rfl⟩ | ⟨_, rfl⟩ <;> rfl
  | deqIn => rcases execDeqIn_next h with ⟨_, rfl⟩ | ⟨x, q, _, _, rfl⟩ <;> rfl
  | trySend => rcases execTrySend_next h with ⟨_, rfl⟩ | ⟨_, rfl⟩ <;> rfl
  | sreset => cases h; rfl

theorem step_cfg {s t : State} (h : step s = .next t) : t.cfg = s.cfg := by
  cases hp : s.pending with
  | nil => rw [step_nothing hp] at h; cases h; rfl
  | cons inp rest =>
    rcases step_cons_next hp h with ⟨_, rfl⟩ | ⟨_, _, rfl⟩ | ⟨i, _, hi⟩
    · rfl
    · rfl
    · have hcfg := exec_cfg hi
      exact hcfg

/-- Settles O9: no command writes `cfg`, and neither do a reset and an illegal word. -/
theorem noStepChangesTheParameters : Obligations.NoStepChangesTheParameters :=
  fun _ _ h => step_cfg h

/-! ## The acknowledgement -/

theorem execTick_ack {s t : State} (h : execTick s = .next t) : t.out.ack = true := by
  rcases execTick_next h with ⟨_, _, rfl⟩ | ⟨_, _, rfl⟩ | ⟨r, _, _, rfl⟩ | ⟨_, _, _, rfl⟩ | ⟨_, _, _, rfl⟩ |
    ⟨_, _, _, hres⟩
  · rw [transition_out]; rfl
  · rfl
  · rw [transition_out]; rfl
  · rfl
  · rfl
  · obtain ⟨p, q, _, ⟨_, rfl⟩ | ⟨_, _, rfl⟩⟩ := resolve_next hres <;> rfl

theorem execRxByte_ack {b : Byte} {s t : State} (h : execRxByte b s = .next t) : t.out.ack = true := by
  rcases execRxByte_next h with ⟨_, rfl⟩ | ⟨_, rfl⟩ | ⟨_, rfl⟩
  · rfl
  · rw [transition_out]; rfl
  · rcases handOff_out (feedByte b { s with occ := true, out := StepOut.quiet }) with ho | ho <;>
      rw [ho, feedByte_out] <;> rfl

theorem execManual_ack {s t : State} (h : execManual s = .next t) : t.out.ack = true := by
  cases h
  exact congrArg StepOut.ack (transition_out _ _ _)

theorem execTrySend_ack {s t : State} (h : execTrySend s = .next t) :
    t.out.ack = false ↔ s.role ≠ .transmit ∨ s.gate = .gSense ∨ s.outQ = [] := by
  have hgate : ¬ s.gate = .gIdle ↔ s.gate = .gSense := by cases s.gate <;> simp
  rcases execTrySend_next h with ⟨hen, rfl⟩ | ⟨hen, rfl⟩
  · simp [StepOut.quiet, hen]
  · rw [not_and_or, not_and_or, not_not, hgate] at hen
    simpa using hen

theorem execDeqIn_ack {s t : State} (h : execDeqIn s = .next t) :
    t.out.ack = false ↔ s.role ≠ .receive ∨ s.inQ = [] := by
  rcases execDeqIn_next h with ⟨hd, rfl⟩ | ⟨x, q, hr, hq, rfl⟩
  · simpa using hd
  · simp [StepOut.quiet, hr, hq]

theorem execEnqOut_ack {s t : State} (h : execEnqOut s = .next t) :
    t.out.ack = false ↔ s.cfg.maxPayload < s.msgIn.len.toNat ∨ s.outQ.length = s.cfg.queueCap := by
  rcases execEnqOut_next h with ⟨hd, e, _, rfl⟩ | ⟨hd, rfl⟩
  · simpa using hd
  · simpa [StepOut.quiet] using hd

/-- Settles O41: three commands can refuse, each exactly under its condition, and the others always acknowledge. -/
theorem ackIsZeroExactlyWhenRefused : Obligations.AckIsZeroExactlyWhenRefused := by
  intro i s t h
  cases i with
  | nop => cases h; simp [StepOut.quiet, State.beginStep]
  | rxByte b => simp [execRxByte_ack h]
  | tick => simp [execTick_ack h]
  | manual => simp [execManual_ack h]
  | enqOut => simp [execEnqOut_ack h]
  | deqIn => simp [execDeqIn_ack h]
  | trySend => simp [execTrySend_ack h]
  | sreset => cases h; simp [StepOut.quiet, resetNode, State.resetOf]

/-! ## A phase that is too short for a sense window -/

/-- The part of the invariant of 10_state.md R40 that bounds a sense window by its phase: the phase count is below
`PHASE_TICKS`, and an open window belongs to role `Transmit` and is no older than its phase. -/
def WindowWithinPhase (s : State) : Prop :=
  s.phaseCnt < s.cfg.phaseTicks ∧ (s.gate = .gSense → s.role = .transmit ∧ s.senseCnt ≤ s.phaseCnt)

theorem WindowWithinPhase.resetOf {c : Config} (hc : c.legal = true) : WindowWithinPhase (State.resetOf c) := by
  simp only [Config.legal, Bool.and_eq_true, decide_eq_true_eq] at hc
  exact ⟨by simp only [State.resetOf]; omega, by simp [State.resetOf]⟩

/-- `WindowWithinPhase` reads five elements of the state. -/
theorem WindowWithinPhase.congr {s t : State} (h : WindowWithinPhase s) (hcfg : t.cfg = s.cfg) (hrole : t.role = s.role)
    (hphase : t.phaseCnt = s.phaseCnt) (hgate : t.gate = s.gate) (hsense : t.senseCnt = s.senseCnt) :
    WindowWithinPhase t := by
  rw [WindowWithinPhase, hcfg, hrole, hphase, hgate, hsense]
  exact h

/-- A state whose gate is idle only has its phase count to bound. -/
theorem WindowWithinPhase.of_gate_idle {s : State} (hp : s.phaseCnt < s.cfg.phaseTicks) (hg : s.gate = .gIdle) :
    WindowWithinPhase s :=
  ⟨hp, by simp [hg]⟩

theorem WindowWithinPhase.resetNode {s : State} (h : WindowWithinPhase s) : WindowWithinPhase (resetNode s) :=
  .of_gate_idle (Nat.zero_lt_of_lt h.1) rfl

theorem WindowWithinPhase.transition {s : State} (h : WindowWithinPhase s) (r : ActiveRole) (c : Cause) :
    WindowWithinPhase (transition r c s) := by
  obtain ⟨hphase, hwindow⟩ := h
  refine .of_gate_idle ?_ (transition_gate_idle (fun hg => (hwindow hg).1) r c)
  rw [transition_phaseCnt, transition_cfg]
  exact Nat.zero_lt_of_lt hphase

theorem WindowWithinPhase.execTick {s t : State} (h : WindowWithinPhase s) (ht : execTick s = .next t) :
    WindowWithinPhase t := by
  obtain ⟨hphase, hwindow⟩ := h
  have hquiet : WindowWithinPhase { s with out := StepOut.quiet } := ⟨hphase, hwindow⟩
  rcases execTick_next ht with ⟨_, _, rfl⟩ | ⟨_, _, rfl⟩ | ⟨r, _, _, rfl⟩ | ⟨_, hne, hclosed, rfl⟩ |
    ⟨hopen, hne, _, rfl⟩ | ⟨_, hne, _, hres⟩
  · exact hquiet.transition _ _
  · exact ⟨hphase, hwindow⟩
  · exact hquiet.transition _ _
  · exact ⟨Nat.lt_of_le_of_ne hphase hne, fun hg => absurd ⟨(hwindow hg).1, hg⟩ hclosed⟩
  · exact ⟨Nat.lt_of_le_of_ne hphase hne, fun hg => ⟨hopen.1, Nat.succ_le_succ (hwindow hg).2⟩⟩
  · obtain ⟨p, q, _, ⟨_, rfl⟩ | ⟨_, _, rfl⟩⟩ := resolve_next hres <;>
      exact .of_gate_idle (Nat.lt_of_le_of_ne hphase hne) rfl

theorem WindowWithinPhase.execRxByte {b : Byte} {s t : State} (h : WindowWithinPhase s)
    (ht : execRxByte b s = .next t) : WindowWithinPhase t := by
  have hmarked : WindowWithinPhase { s with occ := true, out := StepOut.quiet } := h
  rcases execRxByte_next ht with ⟨_, rfl⟩ | ⟨_, rfl⟩ | ⟨_, rfl⟩
  · exact hmarked
  · exact hmarked.transition _ _
  · rw [handOff_frame]
    exact hmarked.congr (feedByte_cfg _ _) (feedByte_role _ _) (feedByte_phaseCnt _ _) (feedByte_gate _ _)
      (feedByte_senseCnt _ _)

/-- Every command keeps a window within its phase: `TRY_SEND` opens it at count 0, and every tick of the window counts in
both counters (43_scheduler.md R155). -/
theorem WindowWithinPhase.exec {i : Instr} {s t : State} (h : WindowWithinPhase s) (ht : exec i s = .next t) :
    WindowWithinPhase t := by
  cases i with
  | nop => cases ht; exact h
  | rxByte b => exact h.execRxByte ht
  | tick => exact h.execTick ht
  | manual =>
    have hquiet : WindowWithinPhase { s with out := StepOut.quiet } := h
    cases ht
    exact hquiet.transition _ _
  | enqOut => rcases execEnqOut_next ht with ⟨_, e, _, rfl⟩ | ⟨_, rfl⟩ <;> exact h
  | deqIn => rcases execDeqIn_next ht with ⟨_, rfl⟩ | ⟨x, q, _, _, rfl⟩ <;> exact h
  | trySend =>
    rcases execTrySend_next ht with ⟨hen, rfl⟩ | ⟨_, rfl⟩
    · exact ⟨h.1, fun _ => ⟨hen.1, Nat.zero_le _⟩⟩
    · exact h
  | sreset => cases ht; exact h.resetNode

/-- Outputs with nothing on the wire and no report of success. -/
abbrev StepOut.silent (o : StepOut) : Prop := o.wireOut = [] ∧ Event.txSuccess ∉ o.events

theorem StepOut.quiet_silent : StepOut.quiet.silent := by decide

theorem transition_silent {s : State} (h : s.out.silent) (r : ActiveRole) (c : Cause) :
    (transition r c s).out.silent := by
  have hev : Event.txSuccess ∉ transitionEvents r c := by cases r <;> cases c <;> decide
  rw [transition_out]
  exact ⟨h.1, by simp [h.2, hev]⟩

theorem handOff_silent {r : FeedResult × State} (h : r.2.out.silent) : (handOff r).out.silent := by
  rcases handOff_out r with ho | ho <;> rw [ho]
  · exact h
  · exact ⟨h.1, by simp [h.2]⟩

theorem illegalCommand_silent (s : State) : (illegalCommand s).out.silent :=
  ⟨rfl, by simp [illegalCommand, StepOut.quiet]⟩

/-- The tick that ends a sense window without ending the phase (42_occupancy_gate.md R138, 43_scheduler.md R155). -/
abbrev windowEnds (s : State) : Prop :=
  windowOpen s ∧ s.phaseCnt + 1 ≠ s.cfg.phaseTicks ∧ s.senseCnt + 1 = s.cfg.senseTicks

theorem execTick_silent {s t : State} (h : execTick s = .next t) (hw : ¬ windowEnds s) : t.out.silent := by
  rcases execTick_next h with ⟨_, _, rfl⟩ | ⟨_, _, rfl⟩ | ⟨r, _, _, rfl⟩ | ⟨_, _, _, rfl⟩ | ⟨_, _, _, rfl⟩ |
    ⟨hopen, hphase, hsense, _⟩
  · exact transition_silent StepOut.quiet_silent _ _
  · exact StepOut.quiet_silent
  · exact transition_silent StepOut.quiet_silent _ _
  · exact StepOut.quiet_silent
  · exact StepOut.quiet_silent
  · exact absurd ⟨hopen, hphase, hsense⟩ hw

theorem execRxByte_silent {b : Byte} {s t : State} (h : execRxByte b s = .next t) : t.out.silent := by
  rcases execRxByte_next h with ⟨_, rfl⟩ | ⟨_, rfl⟩ | ⟨_, rfl⟩
  · exact StepOut.quiet_silent
  · exact transition_silent StepOut.quiet_silent _ _
  · exact handOff_silent (by rw [feedByte_out]; exact StepOut.quiet_silent)

/-- Only the tick that ends a sense window sends or reports success (42_occupancy_gate.md R140). -/
theorem exec_silent {i : Instr} {s t : State} (h : exec i s = .next t) (hw : ¬ windowEnds s) : t.out.silent := by
  cases i with
  | nop => cases h; exact StepOut.quiet_silent
  | rxByte b => exact execRxByte_silent h
  | tick => exact execTick_silent h hw
  | manual => cases h; exact transition_silent StepOut.quiet_silent _ _
  | enqOut => rcases execEnqOut_next h with ⟨_, e, rfl | rfl, rfl⟩ | ⟨_, rfl⟩ <;>
      exact ⟨rfl, by simp [StepOut.quiet]⟩
  | deqIn =>
    rcases execDeqIn_next h with ⟨_, rfl⟩ | ⟨x, q, _, _, rfl⟩
    · exact StepOut.quiet_silent
    · cases x <;> exact ⟨rfl, by simp⟩
  | trySend => rcases execTrySend_next h with ⟨_, rfl⟩ | ⟨_, rfl⟩ <;> exact StepOut.quiet_silent
  | sreset => cases h; exact StepOut.quiet_silent

/-- Where the phase is no longer than a sense window, no window ends before its phase does (70_reset_and_hazards.md
R241). -/
theorem WindowWithinPhase.not_windowEnds {s : State} (h : WindowWithinPhase s)
    (hshort : s.cfg.phaseTicks ≤ s.cfg.senseTicks) : ¬ windowEnds s := by
  rintro ⟨⟨_, hg⟩, hphase, hsense⟩
  obtain ⟨hlt, hwindow⟩ := h
  have := (hwindow hg).2
  omega

/-- A node that never gets to the end of a sense window: the phase ends no later. -/
def TooShortToSend (s : State) : Prop := s.cfg.phaseTicks ≤ s.cfg.senseTicks ∧ WindowWithinPhase s

/-- Every presented input keeps such a node silent, and such a node. -/
theorem TooShortToSend.step {s t : State} {inp : PortInput} (h : TooShortToSend s)
    (ht : step (s.present inp) = .next t) : TooShortToSend t ∧ t.out.silent := by
  obtain ⟨hshort, hs⟩ := h
  have hlatched : WindowWithinPhase { s with msgIn := inp.msgIn } := hs
  have hshort' : t.cfg.phaseTicks ≤ t.cfg.senseTicks := by rw [step_cfg ht]; exact hshort
  rcases step_cons_next rfl ht with ⟨_, rfl⟩ | ⟨_, _, rfl⟩ | ⟨i, _, hi⟩
  · exact ⟨⟨hshort', hlatched.resetNode⟩, StepOut.quiet_silent⟩
  · exact ⟨⟨hshort', hlatched⟩, illegalCommand_silent _⟩
  · exact ⟨⟨hshort', hlatched.exec hi⟩, exec_silent hi (hlatched.not_windowEnds hshort)⟩

/-- Settles O48, by the invariant `TooShortToSend` along the run: a window is never older than its phase, so the phase
ends first. -/
theorem nothingIsSentIfThePhaseIsTooShort : Obligations.NothingIsSentIfThePhaseIsTooShort := by
  intro c is t os hc hshort hrun
  have hreset : TooShortToSend (State.resetOf c) := ⟨hshort, .resetOf hc⟩
  exact (runInputs_induct TooShortToSend.step hreset hrun).2

end Sys2Proof.Machine

/-! SUPPORT. The statements of spec/10_state.md: the state right after reset (R42), which command writes which element
(R37), the invariants (R26, R30 to R33, R40), and that what an earlier frame or reset left in the reassembly elements is
never observed (R24). First everything a command can do, as one relation that later proofs split along. -/

namespace Sys2Proof.Machine

/-! ## Everything a command can do -/

/-- What a command makes of a state in which it completes, one constructor for each case of the spec; `exec_next_iff`
says that it is `exec`. -/
inductive Effect (s : State) : Instr → State → Prop
  /-- 45_control.md R185 -/
  | nop : Effect s .nop { s with out := .quiet }
  /-- 41_reassembler.md R123: a byte in role `Idle` only marks the channel. -/
  | mark (b : Byte) (hrole : s.role = .idle) : Effect s (.rxByte b) { s with occ := true, out := .quiet }
  /-- 41_reassembler.md R122: a byte in role `Transmit` is a collision. -/
  | collide (b : Byte) (hrole : s.role = .transmit) :
      Effect s (.rxByte b) (transition .receive .collision { s with occ := true, out := .quiet })
  /-- 41_reassembler.md R121: a byte in role `Receive` goes to the reassembler. -/
  | feed (b : Byte) (hrole : s.role = .receive) :
      Effect s (.rxByte b) (handOff (feedByte b { s with occ := true, out := .quiet }))
  /-- 43_scheduler.md R156 -/
  | startupEnds (hrole : s.role = .idle) (hcnt : s.startupCnt + 1 = s.cfg.startupTicks) :
      Effect s .tick (transition s.cfg.defaultRole .startup { s with out := .quiet })
  /-- 43_scheduler.md R156 -/
  | startupCounts (hrole : s.role = .idle) (hcnt : s.startupCnt + 1 ≠ s.cfg.startupTicks) :
      Effect s .tick { s with startupCnt := s.startupCnt + 1, out := .quiet }
  /-- 43_scheduler.md R155 -/
  | phaseEnds (r : ActiveRole) (hrole : s.role = roleOf r) (hcnt : s.phaseCnt + 1 = s.cfg.phaseTicks) :
      Effect s .tick (transition (otherRole r) .periodicTimeout { s with out := .quiet })
  /-- 43_scheduler.md R155 -/
  | phaseCounts (hrole : s.role ≠ .idle) (hcnt : s.phaseCnt + 1 ≠ s.cfg.phaseTicks) (hclosed : ¬ windowOpen s) :
      Effect s .tick { s with phaseCnt := s.phaseCnt + 1, out := .quiet }
  /-- 42_occupancy_gate.md R137 -/
  | windowCounts (hopen : windowOpen s) (hcnt : s.phaseCnt + 1 ≠ s.cfg.phaseTicks)
      (hsense : s.senseCnt + 1 ≠ s.cfg.senseTicks) :
      Effect s .tick { s with phaseCnt := s.phaseCnt + 1, senseCnt := s.senseCnt + 1, out := .quiet }
  /-- 42_occupancy_gate.md R138: the window ends with the channel occupied. -/
  | windowCollides (p : Payload) (q : List Payload) (hopen : windowOpen s) (hcnt : s.phaseCnt + 1 ≠ s.cfg.phaseTicks)
      (hsense : s.senseCnt + 1 = s.cfg.senseTicks) (hq : s.outQ = p :: q) (hocc : s.occ = true) :
      Effect s .tick { s with
        phaseCnt := s.phaseCnt + 1, outQ := q, gate := .gIdle, senseCnt := 0
        out := { StepOut.quiet with events := [.collision] } }
  /-- 42_occupancy_gate.md R138: the window ends with the channel clear. -/
  | windowSends (p : Payload) (q : List Payload) (hopen : windowOpen s) (hcnt : s.phaseCnt + 1 ≠ s.cfg.phaseTicks)
      (hsense : s.senseCnt + 1 = s.cfg.senseTicks) (hq : s.outQ = p :: q) (hocc : s.occ = false)
      (hlen : p.length ≤ s.cfg.maxPayload) :
      Effect s .tick { s with
        phaseCnt := s.phaseCnt + 1, outQ := q, gate := .gIdle, senseCnt := 0
        out := { StepOut.quiet with wireOut := encodeFrame p, events := [.txSuccess] } }
  /-- 43_scheduler.md R157 -/
  | toggle : Effect s .manual (transition (manualTarget s) .manualOverride { s with out := .quiet })
  /-- 44_queues.md R174: the payload is too long. -/
  | enqOversize (hsize : s.cfg.maxPayload < s.msgIn.len.toNat) :
      Effect s .enqOut { s with out := { StepOut.quiet with ack := false, events := [.oversizePayload] } }
  /-- 44_queues.md R174: the queue is full. -/
  | enqFull (hsize : ¬ s.cfg.maxPayload < s.msgIn.len.toNat) (hfull : s.outQ.length = s.cfg.queueCap) :
      Effect s .enqOut { s with out := { StepOut.quiet with ack := false, events := [.queueFullOut] } }
  /-- 44_queues.md R174: the payload is accepted. -/
  | enqueue (hsize : ¬ s.cfg.maxPayload < s.msgIn.len.toNat) (hfull : s.outQ.length ≠ s.cfg.queueCap) :
      Effect s .enqOut { s with outQ := s.outQ ++ [s.msgIn.offered], out := .quiet }
  /-- 44_queues.md R175: `DEQ_IN` where it has nothing to hand over. -/
  | deqRefused (hno : s.role ≠ .receive ∨ s.inQ = []) :
      Effect s .deqIn { s with out := { StepOut.quiet with ack := false } }
  /-- 44_queues.md R175: `DEQ_IN` hands over the oldest item. -/
  | dequeue (x : InItem) (q : List InItem) (hrole : s.role = .receive) (hq : s.inQ = x :: q) :
      Effect s .deqIn { s with
        inQ := q
        out := { StepOut.quiet with
                 msgOut := some x
                 events := if x = .errChecksum then [.checksumError] else [] } }
  /-- 42_occupancy_gate.md R135 -/
  | trySendRefused (hno : ¬ (s.role = .transmit ∧ s.gate = .gIdle ∧ s.outQ ≠ [])) :
      Effect s .trySend { s with out := { StepOut.quiet with ack := false } }
  /-- 42_occupancy_gate.md R134 -/
  | openWindow (henabled : s.role = .transmit ∧ s.gate = .gIdle ∧ s.outQ ≠ []) :
      Effect s .trySend { s with occ := false, gate := .gSense, senseCnt := 0, out := .quiet }
  /-- 45_control.md R187 -/
  | reset : Effect s .sreset (resetNode s)

theorem execTick_effect {s t : State} (h : execTick s = .next t) : Effect s .tick t := by
  rcases execTick_next h with ⟨hr, hc, rfl⟩ | ⟨hr, hc, rfl⟩ | ⟨r, hr, hc, rfl⟩ | ⟨hr, hc, hw, rfl⟩ |
    ⟨hw, hc, hs, rfl⟩ | ⟨hw, hc, hs, hres⟩
  · exact .startupEnds hr hc
  · exact .startupCounts hr hc
  · exact .phaseEnds r hr hc
  · exact .phaseCounts hr hc hw
  · exact .windowCounts hw hc hs
  · obtain ⟨p, q, hq, ⟨ho, rfl⟩ | ⟨ho, hp, rfl⟩⟩ := resolve_next hres
    · exact .windowCollides p q hw hc hs hq ho
    · exact .windowSends p q hw hc hs hq ho hp

theorem execEnqOut_effect {s t : State} (h : execEnqOut s = .next t) : Effect s .enqOut t := by
  rw [execEnqOut_eq] at h
  split at h
  next hsize => cases h; exact .enqOversize hsize
  next hsize =>
    split at h <;> cases h
    · exact .enqFull hsize ‹_›
    · exact .enqueue hsize ‹_›

/-- A command that answers a next state has one of the effects. -/
theorem exec_effect {i : Instr} {s t : State} (h : exec i s = .next t) : Effect s i t := by
  cases i with
  | nop => cases h; exact .nop
  | rxByte b =>
    rcases execRxByte_next h with ⟨hr, rfl⟩ | ⟨hr, rfl⟩ | ⟨hr, rfl⟩
    · exact .mark b hr
    · exact .collide b hr
    · exact .feed b hr
  | tick => exact execTick_effect h
  | manual => cases h; exact .toggle
  | enqOut => exact execEnqOut_effect h
  | deqIn =>
    rcases execDeqIn_next h with ⟨hno, rfl⟩ | ⟨x, q, hr, hq, rfl⟩
    · exact .deqRefused hno
    · exact .dequeue x q hr hq
  | trySend =>
    rcases execTrySend_next h with ⟨hen, rfl⟩ | ⟨hno, rfl⟩
    · exact .openWindow hen
    · exact .trySendRefused hno
  | sreset => cases h; exact .reset

/-- `TICK` in an active role is the periodic timer of that role (43_scheduler.md R154, R155). -/
theorem execTick_active {s : State} {r : ActiveRole} (h : s.role = roleOf r) :
    execTick s = phaseTick r s.beginStep := by
  cases r <;> (simp only [execTick]; rw [h]; rfl)

/-- A tick inside an open sense window that does not end the phase is the window's (43_scheduler.md R155). -/
theorem execTick_window {s : State} (hopen : windowOpen s) (hcnt : s.phaseCnt + 1 ≠ s.cfg.phaseTicks) :
    execTick s = senseTick { s with phaseCnt := s.phaseCnt + 1, out := .quiet } := by
  rw [execTick_active (r := .transmit) hopen.1, phaseTick]
  simp only [State.beginStep_phaseCnt, State.beginStep_cfg, if_neg hcnt]
  exact if_pos hopen

theorem resolve_collides {s : State} {p : Payload} {q : List Payload} (hq : s.outQ = p :: q) (ho : s.occ = true) :
    resolve s = .next { s with outQ := q, gate := .gIdle, senseCnt := 0,
                               out := { s.out with events := s.out.events ++ [.collision] } } := by
  simp only [resolve, popOut_cons hq, if_pos ho]
  rfl

/-- The relation is the command: in the cases it lists the command completes, with that next state. -/
theorem Effect.exec_next {i : Instr} {s t : State} (h : Effect s i t) : exec i s = .next t := by
  cases h with
  | nop => rfl
  | mark b hrole => exact execRxByte_idle b hrole
  | collide b hrole => exact execRxByte_transmit b hrole
  | feed b hrole => exact execRxByte_receive b hrole
  | startupEnds hrole hcnt => simp [exec, execTick, hrole, startupTick, hcnt, State.beginStep]
  | startupCounts hrole hcnt => simp [exec, execTick, hrole, startupTick, hcnt, State.beginStep, State.setStartupCnt]
  | phaseEnds r hrole hcnt =>
    have h := execTick_active hrole
    rw [phaseTick, State.beginStep_phaseCnt, State.beginStep_cfg, if_pos hcnt] at h
    exact h
  | phaseCounts hrole hcnt hclosed =>
    obtain ⟨r, hr⟩ : ∃ r, s.role = roleOf r := by
      rcases Role.cases s.role with hr | hr | hr
      · exact absurd hr hrole
      · exact ⟨.transmit, hr⟩
      · exact ⟨.receive, hr⟩
    have h := execTick_active hr
    rw [phaseTick, State.beginStep_phaseCnt, State.beginStep_cfg, if_neg hcnt] at h
    exact h.trans (if_neg hclosed)
  | windowCounts hopen hcnt hsense => exact (execTick_window hopen hcnt).trans (if_neg hsense)
  | windowCollides p q hopen hcnt hsense hq hocc =>
    exact (execTick_window hopen hcnt).trans ((if_pos hsense).trans (resolve_collides hq hocc))
  | windowSends p q hopen hcnt hsense hq hocc hlen =>
    exact (execTick_window hopen hcnt).trans ((if_pos hsense).trans (resolve_sends hq hocc hlen))
  | toggle => rfl
  | enqOversize hsize => exact (execEnqOut_eq s).trans (by rw [if_pos hsize])
  | enqFull hsize hfull => exact (execEnqOut_eq s).trans (by rw [if_neg hsize, if_pos hfull])
  | enqueue hsize hfull => exact (execEnqOut_eq s).trans (by rw [if_neg hsize, if_neg hfull])
  | deqRefused hno => exact execDeqIn_refused hno
  | dequeue x q hrole hq => exact execDeqIn_takes hrole hq
  | trySendRefused hno => exact (execTrySend_eq s).trans (by rw [if_neg hno])
  | openWindow henabled => exact (execTrySend_eq s).trans (by rw [if_pos henabled])
  | reset => rfl

theorem exec_next_iff {i : Instr} {s t : State} : exec i s = .next t ↔ Effect s i t :=
  ⟨exec_effect, Effect.exec_next⟩


/-! ## What the shared operations leave -/

@[simp] theorem transition_rsPhase (r : ActiveRole) (c : Cause) (s : State) :
    (transition r c s).rsPhase = .awaitLengthHigh := by
  rw [transition_eq]
@[simp] theorem transition_rsPos (r : ActiveRole) (c : Cause) (s : State) : (transition r c s).rsPos = 0#16 := by
  rw [transition_eq]
@[simp] theorem transition_rsLen (r : ActiveRole) (c : Cause) (s : State) : (transition r c s).rsLen = s.rsLen := by
  rw [transition_eq]
@[simp] theorem transition_rsCks (r : ActiveRole) (c : Cause) (s : State) : (transition r c s).rsCks = s.rsCks := by
  rw [transition_eq]
@[simp] theorem transition_rsBuf (r : ActiveRole) (c : Cause) (s : State) : (transition r c s).rsBuf = s.rsBuf := by
  rw [transition_eq]
@[simp] theorem transition_occ (r : ActiveRole) (c : Cause) (s : State) : (transition r c s).occ = false := by
  rw [transition_eq]
@[simp] theorem transition_role (r : ActiveRole) (c : Cause) (s : State) : (transition r c s).role = roleOf r := by
  rw [transition_eq]
@[simp] theorem transition_startupCnt (r : ActiveRole) (c : Cause) (s : State) :
    (transition r c s).startupCnt = 0 := by
  rw [transition_eq]
@[simp] theorem transition_inQ (r : ActiveRole) (c : Cause) (s : State) : (transition r c s).inQ = s.inQ := by
  rw [transition_eq]
@[simp] theorem transition_pending (r : ActiveRole) (c : Cause) (s : State) :
    (transition r c s).pending = s.pending := by
  rw [transition_eq]
@[simp] theorem transition_msgIn (r : ActiveRole) (c : Cause) (s : State) : (transition r c s).msgIn = s.msgIn := by
  rw [transition_eq]
@[simp] theorem transition_bufEpoch (r : ActiveRole) (c : Cause) (s : State) :
    (transition r c s).bufEpoch = s.bufEpoch := by
  rw [transition_eq]

/-- Only a collision takes a message out of `out_q` (42_occupancy_gate.md R139). -/
theorem transition_outQ {c : Cause} (hc : c ≠ .collision) (r : ActiveRole) (s : State) :
    (transition r c s).outQ = s.outQ := by
  rw [transition_eq]
  exact if_neg fun h => hc h.2

theorem transition_collision_outQ (r : ActiveRole) (s : State) :
    (transition r .collision s).outQ = if windowOpen s then s.outQ.tail else s.outQ := by
  rw [transition_eq]
  simp

/-- A transition reports itself (43_scheduler.md R153). -/
theorem transition_made (r : ActiveRole) (c : Cause) (s : State) : madeTransition (transition r c s) := by
  have hevents : Event.phaseTx ∈ transitionEvents r c ∨ Event.phaseRx ∈ transitionEvents r c := by
    cases r <;> cases c <;> decide
  rw [madeTransition, transition_out]
  exact hevents.imp (List.mem_append_right _) (List.mem_append_right _)

@[simp] theorem feedByte_occ (b : Byte) (s : State) : (feedByte b s).2.occ = s.occ := by
  rw [feedByte_frame]
@[simp] theorem feedByte_startupCnt (b : Byte) (s : State) : (feedByte b s).2.startupCnt = s.startupCnt := by
  rw [feedByte_frame]
@[simp] theorem feedByte_outQ (b : Byte) (s : State) : (feedByte b s).2.outQ = s.outQ := by
  rw [feedByte_frame]
@[simp] theorem feedByte_inQ (b : Byte) (s : State) : (feedByte b s).2.inQ = s.inQ := by
  rw [feedByte_frame]
@[simp] theorem feedByte_pending (b : Byte) (s : State) : (feedByte b s).2.pending = s.pending := by
  rw [feedByte_frame]
@[simp] theorem feedByte_msgIn (b : Byte) (s : State) : (feedByte b s).2.msgIn = s.msgIn := by
  rw [feedByte_frame]
@[simp] theorem feedByte_bufEpoch (b : Byte) (s : State) : (feedByte b s).2.bufEpoch = s.bufEpoch := by
  rw [feedByte_frame]

@[simp] theorem handOff_occ (r : FeedResult × State) : (handOff r).occ = r.2.occ := by rw [handOff_frame]
@[simp] theorem handOff_role (r : FeedResult × State) : (handOff r).role = r.2.role := by rw [handOff_frame]
@[simp] theorem handOff_phaseCnt (r : FeedResult × State) : (handOff r).phaseCnt = r.2.phaseCnt := by
  rw [handOff_frame]
@[simp] theorem handOff_startupCnt (r : FeedResult × State) : (handOff r).startupCnt = r.2.startupCnt := by
  rw [handOff_frame]
@[simp] theorem handOff_gate (r : FeedResult × State) : (handOff r).gate = r.2.gate := by rw [handOff_frame]
@[simp] theorem handOff_senseCnt (r : FeedResult × State) : (handOff r).senseCnt = r.2.senseCnt := by
  rw [handOff_frame]
@[simp] theorem handOff_outQ (r : FeedResult × State) : (handOff r).outQ = r.2.outQ := by rw [handOff_frame]
@[simp] theorem handOff_cfg (r : FeedResult × State) : (handOff r).cfg = r.2.cfg := by rw [handOff_frame]
@[simp] theorem handOff_pending (r : FeedResult × State) : (handOff r).pending = r.2.pending := by rw [handOff_frame]
@[simp] theorem handOff_msgIn (r : FeedResult × State) : (handOff r).msgIn = r.2.msgIn := by rw [handOff_frame]
@[simp] theorem handOff_bufEpoch (r : FeedResult × State) : (handOff r).bufEpoch = r.2.bufEpoch := by
  rw [handOff_frame]

/-- A hand-off leaves `in_q` or puts one item at its tail (44_queues.md R172). -/
theorem handOff_inQ (r : FeedResult × State) :
    (handOff r).inQ = r.2.inQ ∨
      ∃ x ∈ r.1.items, (handOff r).inQ = r.2.inQ ++ [x] ∧ r.2.inQ.length ≠ r.2.cfg.queueCap := by
  rw [handOff_eq]
  dsimp only
  split
  · exact .inl rfl
  next hroom =>
    cases r.1 with
    | incomplete => exact .inl (List.append_nil _)
    | frameReady p => exact .inr ⟨_, List.mem_singleton_self _, rfl, hroom⟩
    | checksumError => exact .inr ⟨_, List.mem_singleton_self _, rfl, hroom⟩

/-! ## The values of reset and of the codes -/

/-- Settles O10: the table of R42 is the definition of `State.resetOf`, row by row. -/
theorem resetValues : Obligations.ResetValues :=
  fun _ => ⟨rfl, rfl, rfl, rfl, rfl, rfl, rfl, rfl, rfl, rfl, rfl, rfl⟩

theorem Event.code_injective : ∀ e f : Event, e.code = f.code → e = f := by
  intro e f
  cases e <;> cases f <;> decide

theorem Event.code_range (e : Event) : 1 ≤ e.code.toNat ∧ e.code.toNat ≤ 9 := by
  cases e <;> decide

/-- The status outputs show the role and the flag (30_encoding.md R82). -/
theorem stRole_stOcc_iff (s : State) :
    (s.stRole = 0#2 ↔ s.role = .idle) ∧ (s.stRole = 1#2 ↔ s.role = .transmit) ∧ (s.stRole = 2#2 ↔ s.role = .receive) ∧
    s.stRole ≠ 3#2 ∧ (s.stOcc = 1#1 ↔ s.occ = true) ∧ (s.stOcc = 0#1 ↔ s.occ = false) := by
  unfold State.stRole State.stOcc
  generalize s.role = r, s.occ = o
  revert o
  cases r <;> decide

/-- Settles O60. -/
theorem codesAndStatusOutputsFollowTheTables : Obligations.CodesAndStatusOutputsFollowTheTables := by
  refine ⟨fun e => by cases e <;> rfl, Event.code_injective, fun o => ⟨List.length_map _, fun n => List.getElem?_map,
    ?_⟩, by decide, by decide, by decide, stRole_stOcc_iff, fun s => ?_⟩
  · intro c hc
    obtain ⟨e, _, rfl⟩ := List.mem_map.1 hc
    exact e.code_range
  · have hexcl : ¬ (s.role = .transmit ∧ s.role = .receive) := by rintro ⟨ht, hr⟩; rw [ht] at hr; cases hr
    simpa [State.txEn, State.rxEn] using hexcl

/-! ## Which command writes which element -/

section
variable {i : Instr} {s t : State}

theorem Effect.writes_cursor (h : Effect s i t) (hne : t.rsPhase ≠ s.rsPhase ∨ t.rsPos ≠ s.rsPos) :
    ((∃ b, i = .rxByte b) ∧ s.role ≠ .idle) ∨ ((i = .tick ∨ i = .manual) ∧ madeTransition t) ∨ i = .sreset := by
  cases h with
  | collide b hrole => exact .inl ⟨⟨b, rfl⟩, by simp [hrole]⟩
  | feed b hrole => exact .inl ⟨⟨b, rfl⟩, by simp [hrole]⟩
  | startupEnds | phaseEnds => exact .inr (.inl ⟨.inl rfl, transition_made _ _ _⟩)
  | toggle => exact .inr (.inl ⟨.inr rfl, transition_made _ _ _⟩)
  | reset => exact .inr (.inr rfl)
  | _ => simp at hne

theorem Effect.writes_frame (h : Effect s i t) (hne : t.rsLen ≠ s.rsLen ∨ t.rsCks ≠ s.rsCks ∨ t.rsBuf ≠ s.rsBuf) :
    ((∃ b, i = .rxByte b) ∧ s.role = .receive) ∨ (i = .sreset ∧ t.rsLen = 0#16 ∧ t.rsCks = 0#8) := by
  cases h with
  | feed b hrole => exact .inl ⟨⟨b, rfl⟩, hrole⟩
  | reset => exact .inr ⟨rfl, rfl, rfl⟩
  | _ => simp at hne

theorem Effect.writes_occ (h : Effect s i t) (hne : t.occ ≠ s.occ) :
    ((∃ b, i = .rxByte b) ∧ (t.occ = true ∨ (t.occ = false ∧ madeTransition t))) ∨
    (i = .trySend ∧ t.out.ack = true ∧ t.occ = false) ∨
    ((i = .tick ∨ i = .manual) ∧ madeTransition t ∧ t.occ = false) ∨ i = .sreset := by
  cases h with
  | mark b => exact .inl ⟨⟨b, rfl⟩, .inl rfl⟩
  | collide b => exact .inl ⟨⟨b, rfl⟩, .inr ⟨transition_occ _ _ _, transition_made _ _ _⟩⟩
  | feed b => exact .inl ⟨⟨b, rfl⟩, .inl (by simp)⟩
  | openWindow => exact .inr (.inl ⟨rfl, rfl, rfl⟩)
  | startupEnds | phaseEnds => exact .inr (.inr (.inl ⟨.inl rfl, transition_made _ _ _, transition_occ _ _ _⟩))
  | toggle => exact .inr (.inr (.inl ⟨.inr rfl, transition_made _ _ _, transition_occ _ _ _⟩))
  | reset => exact .inr (.inr (.inr rfl))
  | _ => simp at hne

theorem Effect.writes_role_counters (h : Effect s i t)
    (hne : t.role ≠ s.role ∨ t.phaseCnt ≠ s.phaseCnt ∨ t.startupCnt ≠ s.startupCnt) :
    i = .tick ∨ i = .manual ∨ ((∃ b, i = .rxByte b) ∧ s.role = .transmit) ∨ i = .sreset := by
  cases h with
  | startupEnds | startupCounts | phaseEnds | phaseCounts | windowCounts | windowCollides | windowSends =>
    exact .inl rfl
  | toggle => exact .inr (.inl rfl)
  | collide b hrole => exact .inr (.inr (.inl ⟨⟨b, rfl⟩, hrole⟩))
  | reset => exact .inr (.inr (.inr rfl))
  | _ => simp at hne

theorem Effect.writes_gate (h : Effect s i t) (hne : t.gate ≠ s.gate ∨ t.senseCnt ≠ s.senseCnt) :
    i = .trySend ∨ i = .tick ∨ madeTransition t ∨ i = .sreset := by
  cases h with
  | openWindow => exact .inl rfl
  | windowCounts | windowCollides | windowSends => exact .inr (.inl rfl)
  | startupEnds | phaseEnds | collide | toggle => exact .inr (.inr (.inl (transition_made _ _ _)))
  | reset => exact .inr (.inr (.inr rfl))
  | _ => simp at hne

theorem Effect.writes_outQ (h : Effect s i t) (hne : t.outQ ≠ s.outQ) :
    (i = .enqOut ∧ t.out.ack = true ∧ ∃ p, t.outQ = s.outQ ++ [p]) ∨
    (i = .tick ∧ s.role = .transmit ∧ s.gate = .gSense ∧ s.senseCnt + 1 = s.cfg.senseTicks ∧
      s.phaseCnt + 1 ≠ s.cfg.phaseTicks ∧ ∃ p, s.outQ = p :: t.outQ) ∨
    ((∃ b, i = .rxByte b) ∧ s.role = .transmit ∧ s.gate = .gSense ∧ ∃ p, s.outQ = p :: t.outQ) ∨
    i = .sreset := by
  cases h with
  | enqueue => exact .inl ⟨rfl, rfl, _, rfl⟩
  | windowCollides p q hopen hcnt hsense hq => exact .inr (.inl ⟨rfl, hopen.1, hopen.2, hsense, hcnt, p, hq⟩)
  | windowSends p q hopen hcnt hsense hq => exact .inr (.inl ⟨rfl, hopen.1, hopen.2, hsense, hcnt, p, hq⟩)
  | collide b hrole =>
    rw [transition_collision_outQ] at hne ⊢
    split at hne
    next hopen =>
      rw [if_pos hopen]
      cases hq : s.outQ with
      | nil => simp [hq] at hne
      | cons p q => exact .inr (.inr (.inl ⟨⟨b, rfl⟩, hopen.1, hopen.2, p, rfl⟩))
    · exact absurd rfl hne
  | reset => exact .inr (.inr (.inr rfl))
  | _ => simp [transition_outQ] at hne

theorem Effect.writes_inQ (h : Effect s i t) (hne : t.inQ ≠ s.inQ) :
    ((∃ b, i = .rxByte b) ∧ s.role = .receive ∧ ∃ x, t.inQ = s.inQ ++ [x]) ∨
    (i = .deqIn ∧ ∃ x, s.inQ = x :: t.inQ) ∨ i = .sreset := by
  cases h with
  | feed b hrole =>
    rcases handOff_inQ (feedByte b { s with occ := true, out := .quiet }) with hkept | ⟨x, _, hpushed, _⟩
    · rw [hkept, feedByte_inQ] at hne; exact absurd rfl hne
    · rw [feedByte_inQ] at hpushed; exact .inl ⟨⟨b, rfl⟩, hrole, x, hpushed⟩
  | dequeue x q _ hq => exact .inr (.inl ⟨rfl, x, hq⟩)
  | reset => exact .inr (.inr rfl)
  | _ => simp at hne

/-- What is no element of the node: only a reset makes the buffer unspecified anew, and no command touches the
parameters and the environment's inputs (logs 1, 3 and 5). -/
theorem Effect.keeps_environment (h : Effect s i t) :
    (t.bufEpoch ≠ s.bufEpoch → i = .sreset) ∧ t.cfg = s.cfg ∧ t.pending = s.pending ∧ t.msgIn = s.msgIn := by
  cases h with
  | reset => exact ⟨fun _ => rfl, rfl, rfl, rfl⟩
  | _ => simp

end

/-- Settles O35, element by element over the effects of a command. -/
theorem onlyListedCommandsWriteEachElement : Obligations.OnlyListedCommandsWriteEachElement := by
  intro i s t h
  have he := exec_effect h
  exact ⟨he.writes_cursor, he.writes_frame, he.writes_occ, he.writes_role_counters, he.writes_gate, he.writes_outQ,
    he.writes_inQ, he.keeps_environment⟩


/-! ## The invariants at reset -/

/-- The lower bounds of the parameters (00_scope.md R7). -/
theorem Config.legal_pos {c : Config} (h : c.legal = true) :
    1 ≤ c.maxPayload ∧ 1 ≤ c.queueCap ∧ 1 ≤ c.senseTicks ∧ 1 ≤ c.phaseTicks ∧ 1 ≤ c.startupTicks := by
  simp only [Config.legal, Bool.and_eq_true, decide_eq_true_eq] at h
  obtain ⟨⟨⟨⟨⟨hmax, _⟩, hqueue⟩, hsense⟩, hphase⟩, hstart⟩ := h
  exact ⟨hmax, hqueue, hsense, hphase, hstart⟩

/-- Settles O43. -/
theorem invariantHoldsAtReset : Obligations.InvariantHoldsAtReset := by
  intro c hc
  obtain ⟨_, _, hsense, hphase, hstart⟩ := Config.legal_pos hc
  have hcursor : CursorInv (State.resetOf c) := ⟨nofun, fun _ => rfl, nofun⟩
  have hbuffer : BufferInv (State.resetOf c) := ⟨reset_buffer_wf c, nofun, nofun⟩
  have hgate : GateInv (State.resetOf c) := ⟨nofun, fun _ => rfl, hsense⟩
  have htimer : TimerInv (State.resetOf c) := ⟨hphase, hstart, fun _ => rfl, fun _ => rfl⟩
  have hqueue : QueueInv (State.resetOf c) := ⟨Nat.zero_le _, Nat.zero_le _, nofun, nofun⟩
  exact ⟨hc, hcursor, hbuffer, hgate, htimer, hqueue, nofun⟩

/-! ## A transition keeps the invariants -/

/-- With the gate idle and its count at 0 there is no window to bound (10_state.md R32, R33). -/
theorem GateInv.of_closed {s : State} (hg : s.gate = .gIdle) (hn : s.senseCnt = 0) (hpos : 0 < s.cfg.senseTicks) :
    GateInv s := by
  rw [GateInv, hg, hn]
  exact ⟨nofun, fun _ => rfl, hpos⟩

/-- A transition closes an open window, and the count of a closed one is 0 (42_occupancy_gate.md R139). -/
theorem transition_gateInv {s : State} (h : GateInv s) (r : ActiveRole) (c : Cause) : GateInv (transition r c s) := by
  obtain ⟨hopen, hclosed, hbound⟩ := h
  have hsense : (transition r c s).senseCnt = 0 := by
    rw [transition_eq]
    dsimp only
    split
    · rfl
    next hw =>
      cases hg : s.gate with
      | gIdle => exact hclosed hg
      | gSense => exact absurd ⟨(hopen hg).1, hg⟩ hw
  refine .of_closed (transition_gate_idle (fun hg => (hopen hg).1) r c) hsense ?_
  rw [transition_cfg]
  exact Nat.zero_lt_of_lt hbound

theorem transition_outQ_sublist (r : ActiveRole) (c : Cause) (s : State) : (transition r c s).outQ.Sublist s.outQ := by
  rw [transition_eq]
  dsimp only
  split
  · exact List.tail_sublist _
  · exact List.Sublist.refl _

theorem transition_queueInv {s : State} (h : QueueInv s) (r : ActiveRole) (c : Cause) :
    QueueInv (transition r c s) := by
  obtain ⟨hout, hin, hpayload, hitem⟩ := h
  have hsub := transition_outQ_sublist r c s
  rw [QueueInv, transition_inQ, transition_cfg]
  exact ⟨hsub.length_le.trans hout, hin, fun p hp => hpayload p (hsub.subset hp), hitem⟩

/-- A transition keeps the invariants, whatever the flag was: it clears it (43_scheduler.md R151). -/
theorem transition_inv {s : State} (h : s.Inv) (r : ActiveRole) (c : Cause) (occ : Bool) (out : StepOut) :
    (transition r c { s with occ := occ, out := out }).Inv := by
  obtain ⟨hlegal, _, ⟨hwf, haddr, _⟩, hgate, _, hqueue, _⟩ := h
  obtain ⟨_, _, _, hphase, hstart⟩ := Config.legal_pos hlegal
  have hgate' : GateInv { s with occ := occ, out := out } := hgate
  have hqueue' : QueueInv { s with occ := occ, out := out } := hqueue
  exact ⟨by rwa [transition_cfg], ⟨by simp, by simp, by simp⟩,
    ⟨by rwa [transition_rsBuf], by rwa [transition_rsBuf, transition_cfg], by simp⟩, transition_gateInv hgate' r c,
    ⟨by rwa [transition_phaseCnt, transition_cfg], by rwa [transition_startupCnt, transition_cfg], by simp, by simp⟩,
    transition_queueInv hqueue' r c, fun _ => transition_occ _ _ _⟩

/-! ## The reassembler keeps the invariants -/

theorem loByte_joinBytes (hi lo : Byte) : loByte (joinBytes hi lo) = lo := by
  rw [loByte, joinBytes, BitVec.extractLsb'_append_eq_of_add_le (by decide), BitVec.extractLsb'_eq_self]

/-- The next payload position does not wrap (10_state.md R26; log 10). -/
theorem toNat_succ_of_lt {p l : Half} (h : p.toNat < l.toNat) : (p + 1#16).toNat = p.toNat + 1 := by
  have := l.isLt
  rw [BitVec.toNat_add]
  simp only [BitVec.toNat_ofNat]
  omega

@[simp] theorem storePayloadByte_bufEpoch (b : Byte) (s : State) : (storePayloadByte b s).bufEpoch = s.bufEpoch := by
  rw [storePayloadByte_eq]

/-- A payload byte before the last one is stored and counted (41_reassembler.md R115, R116). -/
theorem feedByte_awaitPayload_more {s : State} (b : Byte) (h : s.rsPhase = .awaitPayload)
    (hmore : s.rsPos + 1#16 ≠ s.rsLen) :
    feedByte b s =
      (.incomplete, { s with rsBuf := (storePayloadByte b s).rsBuf, rsPos := s.rsPos + 1#16 }) := by
  rw [feedByte_awaitPayload b h, storePayloadByte_eq]
  exact advancePayload_more hmore

/-- The last payload byte is stored, and the frame is judged by what is stored then (41_reassembler.md R117). -/
theorem feedByte_awaitPayload_last {s : State} (b : Byte) (h : s.rsPhase = .awaitPayload)
    (hlast : s.rsPos + 1#16 = s.rsLen) :
    feedByte b s =
      (if cks (bufPrefix (storePayloadByte b s) (storedLen s)) = s.rsCks
       then .frameReady (bufPrefix (storePayloadByte b s) (storedLen s)) else .checksumError,
       { s with rsBuf := (storePayloadByte b s).rsBuf, rsPhase := .awaitLengthHigh, rsPos := 0#16 }) := by
  rw [feedByte_awaitPayload b h, storePayloadByte_eq]
  exact advancePayload_last hlast

theorem feedByte_cursorInv {s : State} (h : CursorInv s) (b : Byte) : CursorInv (feedByte b s).2 := by
  obtain ⟨hpayload, hstart, _⟩ := h
  cases hph : s.rsPhase with
  | awaitLengthHigh =>
    rw [feedByte_awaitLengthHigh b hph]
    exact ⟨nofun, fun _ => hstart (by simp [hph]), fun _ => loByte_joinBytes _ _⟩
  | awaitLengthLow =>
    rw [feedByte_awaitLengthLow b hph]
    exact ⟨nofun, fun _ => hstart (by simp [hph]), nofun⟩
  | awaitChecksum =>
    by_cases hzero : s.rsLen = 0#16
    · rw [feedByte_awaitChecksum_zero b hph hzero]
      exact ⟨nofun, fun _ => rfl, nofun⟩
    · rw [feedByte_awaitChecksum_pos b hph hzero]
      have hpos : 0 < s.rsLen.toNat := Nat.pos_of_ne_zero fun h0 => hzero (BitVec.eq_of_toNat_eq h0)
      exact ⟨fun _ => ⟨hpos, hpos⟩, fun h => absurd rfl h, nofun⟩
  | awaitPayload =>
    by_cases hlast : s.rsPos + 1#16 = s.rsLen
    · rw [feedByte_awaitPayload_last b hph hlast]
      exact ⟨nofun, fun _ => rfl, nofun⟩
    · rw [feedByte_awaitPayload_more b hph hlast]
      obtain ⟨hlen, hlt⟩ := hpayload hph
      have hsucc := toNat_succ_of_lt hlt
      have hne : (s.rsPos + 1#16).toNat ≠ s.rsLen.toNat := fun he => hlast (BitVec.eq_of_toNat_eq he)
      exact ⟨fun _ => ⟨hlen, by simp only [hsucc] at hne ⊢; omega⟩, fun h => absurd hph h, by simp [hph]⟩

/-- The store keeps the buffer canonical and inside its address range (00_scope.md R11). -/
theorem storePayloadByte_rsBuf_wf {s : State} (hwf : Memory.wf s.rsBuf = true)
    (haddr : ∀ c ∈ s.rsBuf, c.1 < s.cfg.rxBufCap) (b : Byte) :
    Memory.wf (storePayloadByte b s).rsBuf = true ∧ ∀ c ∈ (storePayloadByte b s).rsBuf, c.1 < s.cfg.rxBufCap := by
  rw [storePayloadByte_eq]
  dsimp only
  split
  next hroom =>
    refine ⟨Memory.wf_write _ b hwf, fun c hc => ?_⟩
    rcases Memory.mem_write hc with rfl | hc
    · exact hroom
    · exact haddr c hc
  · exact ⟨hwf, haddr⟩

/-- What the buffer reads after the store of a payload byte: the byte itself at its position, if that is in the buffer,
and what it read before anywhere else (41_reassembler.md R115). -/
theorem read_storePayloadByte (s : State) (b : Byte) (a : Nat) :
    Memory.read (storePayloadByte b s).rsBuf a =
      if a = s.rsPos.toNat ∧ a < s.cfg.rxBufCap then some b else Memory.read s.rsBuf a := by
  rw [storePayloadByte_eq]
  dsimp only
  by_cases hroom : s.rsPos.toNat < s.cfg.rxBufCap
  · rw [if_pos hroom]
    by_cases ha : a = s.rsPos.toNat
    · rw [if_pos ⟨ha, ha ▸ hroom⟩, ha, Memory.read_write_self]
    · rw [if_neg fun h => ha h.1, Memory.read_write_ne _ _ (Ne.symm ha)]
  · rw [if_neg hroom, if_neg fun ⟨ha, hlt⟩ => hroom (ha ▸ hlt)]

theorem feedByte_bufferInv {s : State} (hc : CursorInv s) (h : BufferInv s) (b : Byte) :
    BufferInv (feedByte b s).2 := by
  obtain ⟨hwf, haddr, hwritten⟩ := h
  cases hph : s.rsPhase with
  | awaitLengthHigh => rw [feedByte_awaitLengthHigh b hph]; exact ⟨hwf, haddr, nofun⟩
  | awaitLengthLow => rw [feedByte_awaitLengthLow b hph]; exact ⟨hwf, haddr, nofun⟩
  | awaitChecksum =>
    by_cases hzero : s.rsLen = 0#16
    · rw [feedByte_awaitChecksum_zero b hph hzero]; exact ⟨hwf, haddr, nofun⟩
    · rw [feedByte_awaitChecksum_pos b hph hzero]; exact ⟨hwf, haddr, by simp⟩
  | awaitPayload =>
    obtain ⟨hwf', haddr'⟩ := storePayloadByte_rsBuf_wf hwf haddr b
    by_cases hlast : s.rsPos + 1#16 = s.rsLen
    · rw [feedByte_awaitPayload_last b hph hlast]; exact ⟨hwf', haddr', nofun⟩
    · rw [feedByte_awaitPayload_more b hph hlast]
      refine ⟨hwf', haddr', fun _ a ha => ?_⟩
      have hsucc := toNat_succ_of_lt (hc.1 hph).2
      have hlt : a < min (s.rsPos.toNat + 1) s.cfg.rxBufCap := by rw [← hsucc]; exact List.mem_range.1 ha
      rw [read_storePayloadByte]
      split
      · rfl
      next hother => exact hwritten hph a (List.mem_range.2 (by omega))

/-- A completed payload fits the reassembly buffer (41_reassembler.md R117). -/
theorem feedByte_items_length (b : Byte) (s : State) :
    ∀ x ∈ (feedByte b s).1.items, x.data.length ≤ s.cfg.rxBufCap := by
  have hjudged : ∀ (p : Payload) (ok : Prop) [Decidable ok], p.length ≤ s.cfg.rxBufCap →
      ∀ x ∈ (if ok then FeedResult.frameReady p else .checksumError).items, x.data.length ≤ s.cfg.rxBufCap := by
    intro p ok _ hp x hx
    split at hx <;> cases List.mem_singleton.1 hx
    · exact hp
    · exact Nat.zero_le _
  cases hph : s.rsPhase with
  | awaitLengthHigh => rw [feedByte_awaitLengthHigh b hph]; nofun
  | awaitLengthLow => rw [feedByte_awaitLengthLow b hph]; nofun
  | awaitChecksum =>
    by_cases hzero : s.rsLen = 0#16
    · rw [feedByte_awaitChecksum_zero b hph hzero]; exact hjudged [] _ (Nat.zero_le _)
    · rw [feedByte_awaitChecksum_pos b hph hzero]; nofun
  | awaitPayload =>
    by_cases hlast : s.rsPos + 1#16 = s.rsLen
    · rw [feedByte_awaitPayload_last b hph hlast]
      exact hjudged _ _ (by rw [bufPrefix_length]; exact Nat.min_le_right _ _)
    · rw [feedByte_awaitPayload_more b hph hlast]; nofun

/-- The hand-off keeps `in_q` within its bounds (44_queues.md R172, R178). -/
theorem handOff_queueInv {r : FeedResult × State} (h : QueueInv r.2)
    (hitems : ∀ x ∈ r.1.items, x.data.length ≤ r.2.cfg.rxBufCap) : QueueInv (handOff r) := by
  obtain ⟨hout, hin, hpayload, hitem⟩ := h
  rw [QueueInv, handOff_outQ, handOff_cfg]
  rcases handOff_inQ r with hkept | ⟨x, hx, hpushed, hroom⟩
  · rw [hkept]; exact ⟨hout, hin, hpayload, hitem⟩
  · rw [hpushed]
    refine ⟨hout, ?_, hpayload, fun y hy => ?_⟩
    · rw [List.length_append]; exact Nat.lt_of_le_of_ne hin hroom
    · rcases List.mem_append.1 hy with hy | hy
      · exact hitem y hy
      · cases List.mem_singleton.1 hy; exact hitems x hx

/-- A byte that goes to the reassembler keeps the invariants (41_reassembler.md R110, R121). -/
theorem handOff_feedByte_inv {s : State} (h : s.Inv) (b : Byte) : (handOff (feedByte b s)).Inv := by
  obtain ⟨hlegal, hcursor, hbuffer, hgate, htimer, hqueue, hflag⟩ := h
  have hqueue' : QueueInv (feedByte b s).2 := by rw [feedByte_frame]; exact hqueue
  have hfed := handOff_queueInv hqueue' (by rw [feedByte_cfg]; exact feedByte_items_length b s)
  have hcursor' := feedByte_cursorInv hcursor b
  have hbuffer' := feedByte_bufferInv hcursor hbuffer b
  refine ⟨?_, ?_, ?_, ?_, ?_, hfed, ?_⟩
  · rwa [handOff_cfg, feedByte_cfg]
  · rw [handOff_frame]; exact hcursor'
  · rw [handOff_frame]; exact hbuffer'
  · rw [handOff_frame, feedByte_frame]; exact hgate
  · rw [handOff_frame, feedByte_frame]; exact htimer
  · rw [handOff_frame, feedByte_frame]; exact hflag

/-! ## Every step keeps the invariants -/

@[simp] theorem MsgIn.offered_length (m : MsgIn) : m.offered.length = m.len.toNat := by simp [MsgIn.offered]

theorem resetNode_inv {s : State} (h : s.Inv) : (resetNode s).Inv := invariantHoldsAtReset s.cfg h.1

/-- Every effect of a command keeps the invariants. -/
theorem Effect.inv {i : Instr} {s t : State} (he : Effect s i t) (h : s.Inv) : t.Inv := by
  have ⟨hlegal, hcursor, hbuffer, hgate, htimer, hqueue, hflag⟩ := h
  have ⟨hopened, hclosed, hsensed⟩ := hgate
  have ⟨hphase, hstart, hidle, hactive⟩ := htimer
  have ⟨hout, hin, hpayload, hitem⟩ := hqueue
  cases he with
  | nop | enqOversize | enqFull | deqRefused | trySendRefused => exact h
  | mark b hrole => exact ⟨hlegal, hcursor, hbuffer, hgate, htimer, hqueue, by simp [hrole]⟩
  | collide | startupEnds | phaseEnds | toggle => exact transition_inv h _ _ _ _
  | feed b hrole =>
    have hmarked : State.Inv { s with occ := true, out := .quiet } :=
      ⟨hlegal, hcursor, hbuffer, hgate, htimer, hqueue, by simp [hrole]⟩
    exact handOff_feedByte_inv hmarked b
  | startupCounts hrole hcnt =>
    have htimer' : TimerInv { s with startupCnt := s.startupCnt + 1, out := .quiet } :=
      ⟨hphase, Nat.lt_of_le_of_ne hstart hcnt, hidle, fun hne => absurd hrole hne⟩
    exact ⟨hlegal, hcursor, hbuffer, hgate, htimer', hqueue, hflag⟩
  | phaseCounts hrole hcnt hw =>
    refine ⟨hlegal, hcursor, hbuffer, ⟨fun hg => absurd ⟨(hopened hg).1, hg⟩ hw, hclosed, hsensed⟩, ?_, hqueue, hflag⟩
    exact ⟨Nat.lt_of_le_of_ne hphase hcnt, hstart, fun hi => absurd hi hrole, hactive⟩
  | windowCounts hw hcnt hsense =>
    obtain ⟨hrole, hgs⟩ := hw
    obtain ⟨_, hne, hyoung⟩ := hopened hgs
    refine ⟨hlegal, hcursor, hbuffer, ⟨fun _ => ⟨hrole, hne, Nat.succ_le_succ hyoung⟩, ?_, ?_⟩, ?_, hqueue, hflag⟩
    · simp [hgs]
    · exact Nat.lt_of_le_of_ne hsensed hsense
    · exact ⟨Nat.lt_of_le_of_ne hphase hcnt, hstart, by simp [hrole], hactive⟩
  | windowCollides p q hw hcnt _ hq | windowSends p q hw hcnt _ hq =>
    rw [hq] at hout hpayload
    refine ⟨hlegal, hcursor, hbuffer, .of_closed rfl rfl (Nat.zero_lt_of_lt hsensed), ?_, ?_, hflag⟩
    · exact ⟨Nat.lt_of_le_of_ne hphase hcnt, hstart, by simp [hw.1], hactive⟩
    · exact ⟨Nat.le_of_succ_le hout, hin, fun x hx => hpayload x (List.mem_cons_of_mem _ hx), hitem⟩
  | enqueue hsize hfull =>
    refine ⟨hlegal, hcursor, hbuffer, ⟨fun hg => ?_, hclosed, hsensed⟩, htimer, ⟨?_, hin, fun p hp => ?_, hitem⟩, hflag⟩
    · exact ⟨(hopened hg).1, by simp, (hopened hg).2.2⟩
    · rw [List.length_append]; exact Nat.lt_of_le_of_ne hout hfull
    · rcases List.mem_append.1 hp with hp | hp
      · exact hpayload p hp
      · cases List.mem_singleton.1 hp; rw [MsgIn.offered_length]; exact Nat.le_of_not_lt hsize
  | dequeue x q _ hq =>
    rw [hq] at hin hitem
    exact ⟨hlegal, hcursor, hbuffer, hgate, htimer,
      ⟨hout, Nat.le_of_succ_le hin, hpayload, fun y hy => hitem y (List.mem_cons_of_mem _ hy)⟩, hflag⟩
  | openWindow hen =>
    refine ⟨hlegal, hcursor, hbuffer, ⟨fun _ => ⟨hen.1, hen.2.2, Nat.zero_le _⟩, nofun, ?_⟩, htimer, hqueue,
      fun _ => rfl⟩
    exact Nat.zero_lt_of_lt hsensed
  | reset => exact resetNode_inv h

/-- Settles O44: a step is nothing, a reset, an illegal word or an effect of a command, and each keeps the
invariants. -/
theorem everyStepKeepsTheInvariant : Obligations.EveryStepKeepsTheInvariant := by
  intro s t h ht
  cases hp : s.pending with
  | nil => rw [step_nothing hp] at ht; cases ht; exact h
  | cons inp rest =>
    have hlatched : State.Inv { s with pending := rest, msgIn := inp.msgIn } := h
    rcases step_cons_next hp ht with ⟨_, rfl⟩ | ⟨_, _, rfl⟩ | ⟨i, _, hi⟩
    · exact resetNode_inv hlatched
    · exact hlatched
    · exact (exec_effect hi).inv hlatched

/-- Settles O45, by induction on how the state is reached. -/
theorem reachableStatesHaveTheInvariant : Obligations.ReachableStatesHaveTheInvariant := by
  intro c s hc hs
  induction hs with
  | reset => exact ⟨invariantHoldsAtReset c hc, rfl⟩
  | next inp _ hstep ih =>
    obtain ⟨hinv, hcfg⟩ := ih
    have hpresented : (State.present inp _).Inv := hinv
    exact ⟨everyStepKeepsTheInvariant _ _ hpresented hstep, (step_cfg hstep).trans hcfg⟩


/-! ## Stale reassembly contents -/

/-- `s` with what an earlier frame or reset may have left, taken from `u`: the length, the checksum, the buffer and the
free values of its unwritten bytes. -/
def State.withStaleOf (s u : State) : State :=
  { s with rsLen := u.rsLen, rsCks := u.rsCks, rsBuf := u.rsBuf, bufEpoch := u.bufEpoch }

/-- The part of `rs_len`, `rs_cks` and `rs_buf` that a rule can still read is equal (10_state.md R24). -/
abbrev SameLiveFrame (s t : State) : Prop :=
  (s.rsPhase = .awaitLengthLow → hiByte s.rsLen = hiByte t.rsLen) ∧
  (s.rsPhase = .awaitChecksum → s.rsLen = t.rsLen) ∧
  (s.rsPhase = .awaitPayload →
    s.rsLen = t.rsLen ∧ s.rsCks = t.rsCks ∧
    ∀ a ∈ List.range (min s.rsPos.toNat s.cfg.rxBufCap), bufRead s a = bufRead t a)

/-- Two states agree where they are one but for stale contents. -/
theorem agreeOnLive_iff {s t : State} : AgreeOnLive s t ↔ t = s.withStaleOf t ∧ SameLiveFrame s t := by
  constructor
  · rintro ⟨h1, h2, h3, h4, h5, h6, h7, h8, h9, h10, h11, h12, h13, h14, hlive⟩
    refine ⟨?_, hlive⟩
    cases t
    simp only [State.withStaleOf, h1, h2, h3, h4, h5, h6, h7, h8, h9, h10, h11, h12, h13, h14]
  · rintro ⟨ht, hlive⟩
    rw [ht] at hlive ⊢
    exact ⟨rfl, rfl, rfl, rfl, rfl, rfl, rfl, rfl, rfl, rfl, rfl, rfl, rfl, rfl, hlive⟩

theorem exists_withStaleOf_of_agree {s t : State} (h : AgreeOnLive s t) :
    ∃ u, t = s.withStaleOf u ∧ SameLiveFrame s (s.withStaleOf u) := by
  obtain ⟨ht, hlive⟩ := agreeOnLive_iff.1 h
  exact ⟨t, ht, ht ▸ hlive⟩

theorem agreeOnLive_withStaleOf {s u : State} (h : SameLiveFrame s (s.withStaleOf u)) :
    AgreeOnLive s (s.withStaleOf u) :=
  agreeOnLive_iff.2 ⟨rfl, h⟩

/-- At the start of a frame nothing of the earlier ones is live. -/
theorem SameLiveFrame.of_start {s : State} (h : s.rsPhase = .awaitLengthHigh) (t : State) : SameLiveFrame s t := by
  simp [SameLiveFrame, h]

theorem transition_withStaleOf (r : ActiveRole) (c : Cause) (s u : State) :
    transition r c (s.withStaleOf u) = (transition r c s).withStaleOf u := by
  rw [transition_eq, transition_eq]
  rfl

/-- The hand-off of one result keeps the agreement of two states. -/
theorem handOff_agree {r r' : FeedResult × State} (hresult : r.1 = r'.1) (h : AgreeOnLive r.2 r'.2) :
    AgreeOnLive (handOff r) (handOff r') := by
  obtain ⟨u, ht, hlive⟩ := exists_withStaleOf_of_agree h
  have hstale : handOff r' = (handOff r).withStaleOf u := by
    rw [handOff_eq, handOff_eq, ← hresult, ht]
    rfl
  have hlive' : SameLiveFrame (handOff r) ((handOff r).withStaleOf u) := by
    rw [handOff_frame]
    exact hlive
  rw [hstale]
  exact agreeOnLive_withStaleOf hlive'

theorem bufPrefix_eq_of_forall {s t : State} {k : Nat} (h : ∀ a < k, bufRead s a = bufRead t a) :
    bufPrefix s k = bufPrefix t k :=
  List.map_congr_left fun a ha => h a (List.mem_range.1 ha)

theorem bufRead_storePayloadByte (s : State) (b : Byte) (a : Nat) :
    bufRead (storePayloadByte b s) a = if a = s.rsPos.toNat ∧ a < s.cfg.rxBufCap then b else bufRead s a := by
  simp only [bufRead, read_storePayloadByte, storePayloadByte_bufEpoch]
  split <;> rfl

/-- The store of the same byte at the same position makes the live part of two buffers one byte longer. -/
theorem bufRead_storePayloadByte_congr {s t : State} (hpos : s.rsPos = t.rsPos) (hcfg : s.cfg = t.cfg) (b : Byte)
    (h : ∀ a < min s.rsPos.toNat s.cfg.rxBufCap, bufRead s a = bufRead t a) :
    ∀ a < min (s.rsPos.toNat + 1) s.cfg.rxBufCap,
      bufRead (storePayloadByte b s) a = bufRead (storePayloadByte b t) a := by
  intro a ha
  rw [bufRead_storePayloadByte, bufRead_storePayloadByte, ← hpos, ← hcfg]
  split
  · rfl
  next hother => exact h a (by omega)

/-- `feed_byte` answers alike on states that agree, and leaves states that agree (41_reassembler.md R118). -/
theorem feedByte_agree {s u : State} (h : SameLiveFrame s (s.withStaleOf u)) (b : Byte) :
    (feedByte b s).1 = (feedByte b (s.withStaleOf u)).1 ∧
      AgreeOnLive (feedByte b s).2 (feedByte b (s.withStaleOf u)).2 := by
  obtain ⟨hlow, hcks, hpayload⟩ := h
  cases hph : s.rsPhase with
  | awaitLengthHigh =>
    rw [feedByte_awaitLengthHigh b hph, feedByte_awaitLengthHigh b (s := s.withStaleOf u) hph]
    exact ⟨rfl, agreeOnLive_iff.2 ⟨rfl, fun _ => rfl, nofun, nofun⟩⟩
  | awaitLengthLow =>
    rw [feedByte_awaitLengthLow b hph, feedByte_awaitLengthLow b (s := s.withStaleOf u) hph, hlow hph]
    exact ⟨rfl, agreeOnLive_iff.2 ⟨rfl, nofun, fun _ => rfl, nofun⟩⟩
  | awaitChecksum =>
    have hlen := hcks hph
    by_cases hzero : s.rsLen = 0#16
    · rw [feedByte_awaitChecksum_zero b hph hzero,
        feedByte_awaitChecksum_zero b (s := s.withStaleOf u) hph (hlen.symm.trans hzero)]
      exact ⟨rfl, agreeOnLive_iff.2 ⟨rfl, .of_start rfl _⟩⟩
    · rw [feedByte_awaitChecksum_pos b hph hzero,
        feedByte_awaitChecksum_pos b (s := s.withStaleOf u) hph fun h0 => hzero (hlen.trans h0)]
      exact ⟨rfl, agreeOnLive_iff.2 ⟨rfl, nofun, nofun, fun _ => ⟨hlen, rfl, by simp⟩⟩⟩
  | awaitPayload =>
    obtain ⟨hlen, hsum, hread⟩ := hpayload hph
    have hstored := bufRead_storePayloadByte_congr (s := s) (t := s.withStaleOf u) rfl rfl b
      fun a ha => hread a (List.mem_range.2 ha)
    by_cases hlast : s.rsPos + 1#16 = s.rsLen
    · have hp : bufPrefix (storePayloadByte b s) (storedLen s) =
          bufPrefix (storePayloadByte b (s.withStaleOf u)) (storedLen (s.withStaleOf u)) := by
        have hk : storedLen s = storedLen (s.withStaleOf u) :=
          congrArg (fun l : Half => min l.toNat s.cfg.rxBufCap) hlen
        rw [← hk]
        refine bufPrefix_eq_of_forall fun a ha => hstored a ?_
        have hbound : s.rsLen.toNat ≤ s.rsPos.toNat + 1 := by rw [← hlast]; bv_omega
        exact Nat.lt_of_lt_of_le ha (min_le_min_right _ hbound)
      rw [feedByte_awaitPayload_last b hph hlast,
        feedByte_awaitPayload_last b (s := s.withStaleOf u) hph (hlast.trans hlen), hp, hsum]
      exact ⟨rfl, agreeOnLive_iff.2 ⟨rfl, .of_start rfl _⟩⟩
    · rw [feedByte_awaitPayload_more b hph hlast,
        feedByte_awaitPayload_more b (s := s.withStaleOf u) hph fun h => hlast (h.trans hlen.symm)]
      have hsucc : (s.rsPos + 1#16).toNat ≤ s.rsPos.toNat + 1 := by bv_omega
      have hread' : ∀ a < min (s.rsPos + 1#16).toNat s.cfg.rxBufCap,
          bufRead (storePayloadByte b s) a = bufRead (storePayloadByte b (s.withStaleOf u)) a :=
        fun a ha => hstored a (Nat.lt_of_lt_of_le ha (min_le_min_right _ hsucc))
      refine ⟨rfl, agreeOnLive_iff.2 ⟨rfl, by simp [hph], by simp [hph], fun _ => ⟨hlen, hsum, fun a ha => ?_⟩⟩⟩
      have h := hread' a (List.mem_range.1 ha)
      simp only [bufRead, storePayloadByte_bufEpoch] at h
      exact h

/-- Where a command has an effect, it has the same one on a state that differs in stale contents only. -/
theorem Effect.withStaleOf {i : Instr} {s s' : State} (he : Effect s i s') (u : State)
    (h : SameLiveFrame s (s.withStaleOf u)) : ∃ t', Effect (s.withStaleOf u) i t' ∧ AgreeOnLive s' t' := by
  have hmoved : ∀ (r : ActiveRole) (c : Cause) (v : State),
      AgreeOnLive (transition r c v) (transition r c (v.withStaleOf u)) := fun r c v => by
    rw [transition_withStaleOf]
    exact agreeOnLive_withStaleOf (.of_start (transition_rsPhase r c v) _)
  cases he with
  | nop => exact ⟨_, .nop, agreeOnLive_withStaleOf h⟩
  | mark b hrole => exact ⟨_, .mark b hrole, agreeOnLive_withStaleOf h⟩
  | collide b hrole => exact ⟨_, .collide b hrole, hmoved _ _ _⟩
  | feed b hrole =>
    obtain ⟨hresult, hagree⟩ := feedByte_agree (s := { s with occ := true, out := .quiet }) h b
    exact ⟨_, .feed b hrole, handOff_agree hresult hagree⟩
  | startupEnds hrole hcnt => exact ⟨_, .startupEnds hrole hcnt, hmoved _ _ _⟩
  | startupCounts hrole hcnt => exact ⟨_, .startupCounts hrole hcnt, agreeOnLive_withStaleOf h⟩
  | phaseEnds r hrole hcnt => exact ⟨_, .phaseEnds r hrole hcnt, hmoved _ _ _⟩
  | phaseCounts hrole hcnt hclosed => exact ⟨_, .phaseCounts hrole hcnt hclosed, agreeOnLive_withStaleOf h⟩
  | windowCounts hopen hcnt hsense => exact ⟨_, .windowCounts hopen hcnt hsense, agreeOnLive_withStaleOf h⟩
  | windowCollides p q hopen hcnt hsense hq hocc =>
    exact ⟨_, .windowCollides p q hopen hcnt hsense hq hocc, agreeOnLive_withStaleOf h⟩
  | windowSends p q hopen hcnt hsense hq hocc hlen =>
    exact ⟨_, .windowSends p q hopen hcnt hsense hq hocc hlen, agreeOnLive_withStaleOf h⟩
  | toggle => exact ⟨_, .toggle, hmoved _ _ _⟩
  | enqOversize hsize => exact ⟨_, .enqOversize hsize, agreeOnLive_withStaleOf h⟩
  | enqFull hsize hfull => exact ⟨_, .enqFull hsize hfull, agreeOnLive_withStaleOf h⟩
  | enqueue hsize hfull => exact ⟨_, .enqueue hsize hfull, agreeOnLive_withStaleOf h⟩
  | deqRefused hno => exact ⟨_, .deqRefused hno, agreeOnLive_withStaleOf h⟩
  | dequeue x q hrole hq => exact ⟨_, .dequeue x q hrole hq, agreeOnLive_withStaleOf h⟩
  | trySendRefused hno => exact ⟨_, .trySendRefused hno, agreeOnLive_withStaleOf h⟩
  | openWindow henabled => exact ⟨_, .openWindow henabled, agreeOnLive_withStaleOf h⟩
  | reset => exact ⟨_, .reset, agreeOnLive_iff.2 ⟨rfl, .of_start rfl _⟩⟩

/-- Settles O53: two states that agree differ in stale contents only, which no effect of a command reads. -/
theorem staleReassemblyContentsAreNeverObserved : Obligations.StaleReassemblyContentsAreNeverObserved := by
  intro s t s' h hs
  obtain ⟨u, rfl, hlive⟩ := exists_withStaleOf_of_agree h
  suffices ∃ t', step (s.withStaleOf u) = .next t' ∧ AgreeOnLive s' t' by
    obtain ⟨t', ht, hagree⟩ := this
    exact ⟨t', ht, hagree, (congrArg State.out (agreeOnLive_iff.1 hagree).1).symm⟩
  cases hp : s.pending with
  | nil =>
    rw [step_nothing hp] at hs
    cases hs
    exact ⟨_, step_nothing (s := s.withStaleOf u) hp, h⟩
  | cons inp rest =>
    rw [step_cons (s := s.withStaleOf u) hp]
    rcases step_cons_next hp hs with ⟨hsel, rfl⟩ | ⟨e, hsel, rfl⟩ | ⟨i, hsel, hi⟩
    · rw [hsel]
      exact ⟨_, rfl, agreeOnLive_iff.2 ⟨rfl, .of_start rfl _⟩⟩
    · rw [hsel]
      exact ⟨_, rfl, agreeOnLive_withStaleOf hlive⟩
    · rw [hsel]
      obtain ⟨t', ht, hagree⟩ := (exec_effect hi).withStaleOf u hlive
      exact ⟨t', ht.exec_next, hagree⟩

/-- Settles O54: SRESET makes a state at the start of a frame, where the new buffer and its free values are not live. -/
theorem sresetEqualsAFreshNode : Obligations.SresetEqualsAFreshNode :=
  fun s => ⟨resetNode s, rfl, agreeOnLive_iff.2 ⟨rfl, .of_start rfl _⟩⟩

end Sys2Proof.Machine

/-! SUPPORT. The statements of spec/30_encoding.md: the decoder and the encoder against the opcode map (R76 to R79), the
payload of the message port (R80), the reset input (R85), the layout of a frame (R70), what a step reports (R86), and
when bytes go on the wire (R83). First the fields of a command word, and the decoder as an equivalence on them. -/

namespace Sys2Proof

/-! ## The fields of a command word (30_encoding.md R76) -/

theorem word_eq_fields (w : Half) : w = cmdOpcode w ++ cmdZero w ++ cmdOperand w := by
  have hhigh : cmdOpcode w ++ cmdZero w = w.extractLsb' 8 8 :=
    BitVec.extractLsb'_append_extractLsb'_eq_extractLsb' (by decide)
  have hword : w.extractLsb' 8 8 ++ w.extractLsb' 0 8 = w.extractLsb' 0 16 :=
    BitVec.extractLsb'_append_extractLsb'_eq_extractLsb' (by decide)
  rw [hhigh, cmdOperand, hword, BitVec.extractLsb'_eq_self]

@[simp] theorem cmdOpcode_fields (op z : BitVec 4) (b : Byte) : cmdOpcode (op ++ z ++ b) = op := by
  rw [cmdOpcode, BitVec.extractLsb'_append_eq_of_le (by decide)]
  exact BitVec.extractLsb'_append_eq_left

@[simp] theorem cmdZero_fields (op z : BitVec 4) (b : Byte) : cmdZero (op ++ z ++ b) = z := by
  rw [cmdZero, BitVec.extractLsb'_append_eq_of_le (by decide)]
  exact BitVec.extractLsb'_append_eq_right

@[simp] theorem cmdOperand_fields (op z : BitVec 4) (b : Byte) : cmdOperand (op ++ z ++ b) = b :=
  BitVec.extractLsb'_append_eq_right

theorem fields_inj {op op' z z' : BitVec 4} {b b' : Byte} :
    op ++ z ++ b = op' ++ z' ++ b' ↔ op = op' ∧ z = z' ∧ b = b' := by
  refine ⟨fun h => ⟨?_, ?_, ?_⟩, by rintro ⟨rfl, rfl, rfl⟩; rfl⟩
  · simpa using congrArg cmdOpcode h
  · simpa using congrArg cmdZero h
  · simpa using congrArg cmdOperand h

/-- The two upper fields are those of the high byte, whatever the operand bits are. -/
theorem cmdOpcode_append (hi lo : Byte) : cmdOpcode (hi ++ lo) = hi.extractLsb' 4 4 := by
  rw [cmdOpcode, BitVec.extractLsb'_append_eq_of_le (by decide)]

theorem cmdZero_append (hi lo : Byte) : cmdZero (hi ++ lo) = hi.extractLsb' 0 4 := by
  rw [cmdZero, BitVec.extractLsb'_append_eq_of_le (by decide)]

/-! ## The decoder and the encoder (30_encoding.md R77 to R79) -/

theorem decodeOpcode_eq_ok_iff {op : BitVec 4} {b : Byte} {i : Instr} :
    decodeOpcode op b = .ok i ↔ op = opcodeOf i ∧ ∀ c, i = .rxByte c → c = b := by
  constructor
  · intro h
    unfold decodeOpcode at h
    split at h <;> cases h <;> exact ⟨BitVec.eq_of_toNat_eq ‹_›, by simp⟩
  · rintro ⟨rfl, hoperand⟩
    cases i with
    | rxByte c => rw [hoperand c rfl]; rfl
    | _ => rfl

/-- The opcodes without a row are 0x7 to 0xE. -/
theorem decodeOpcode_eq_error_iff {op : BitVec 4} {b : Byte} :
    (∃ e, decodeOpcode op b = .error e) ↔ 7 ≤ op.toNat ∧ op.toNat ≤ 14 := by
  unfold decodeOpcode
  split
  case h_9 =>
    simp only [imp_false] at *
    have hlt := op.isLt
    exact ⟨fun _ => by omega, fun _ => ⟨_, rfl⟩⟩
  all_goals simp [*]

/-- The words of a command, field by field. -/
theorem decode_eq_ok_iff {w : Half} {i : Instr} :
    decode w = .ok i ↔
      (cmdOpcode w = opcodeOf i ∧ cmdZero w = 0#4) ∧ ∀ b, i = .rxByte b → b = cmdOperand w := by
  unfold decode
  split
  next hzero => simp [decodeOpcode_eq_ok_iff, hzero]
  next hzero => simp [hzero]

/-- The illegal words, field by field. -/
theorem decode_eq_error_iff {w : Half} :
    (∃ e, decode w = .error e) ↔ (7 ≤ (cmdOpcode w).toNat ∧ (cmdOpcode w).toNat ≤ 14) ∨ cmdZero w ≠ 0#4 := by
  unfold decode
  split
  next hzero => simp [decodeOpcode_eq_error_iff, hzero]
  next hzero => simp [hzero]

theorem decode_encode (i : Instr) : decode (encode i) = .ok i := by
  refine decode_eq_ok_iff.2 ⟨⟨cmdOpcode_fields _ _ _, cmdZero_fields _ _ _⟩, ?_⟩
  rintro b rfl
  exact (cmdOperand_fields _ _ _).symm

/-- A command without an operand reads the same from every word with the same high byte (30_encoding.md R78). -/
theorem decode_append_ignores_operand {hi lo : Byte} {i : Instr} (hne : ∀ b, i ≠ .rxByte b)
    (h : decode (hi ++ lo) = .ok i) (lo' : Byte) : decode (hi ++ lo') = .ok i := by
  rw [decode_eq_ok_iff, cmdOpcode_append, cmdZero_append] at h ⊢
  exact ⟨h.1, fun b hb => absurd hb (hne b)⟩

/-! ## The opcode map (30_encoding.md R77) -/

/-- The mask of every row keeps the two upper fields. -/
theorem and_rowMask_eq (w : Half) : w &&& 0xFF00#16 = cmdOpcode w ++ cmdZero w ++ 0#8 := by
  have hmask : 0xFF00#16 = BitVec.allOnes 4 ++ BitVec.allOnes 4 ++ 0#8 := by decide
  calc w &&& 0xFF00#16
      = (cmdOpcode w ++ cmdZero w ++ cmdOperand w) &&& (BitVec.allOnes 4 ++ BitVec.allOnes 4 ++ 0#8) := by
        rw [← word_eq_fields, hmask]
    _ = cmdOpcode w ++ cmdZero w ++ 0#8 := by
        rw [BitVec.and_append, BitVec.and_append, BitVec.and_allOnes, BitVec.and_allOnes, BitVec.and_zero]

/-- The row of a command in the opcode map. -/
def rowOf (i : Instr) : OpcodeRow := ⟨mnemonicOf i, opcodeOf i ++ 0#4 ++ 0#8, 0xFF00#16⟩

theorem rowOf_mem (i : Instr) : rowOf i ∈ opcodeRows := by
  cases i <;> simp [opcodeRows, rowOf, mnemonicOf, opcodeOf]

/-- No two rows share a mnemonic. -/
theorem opcodeRows_mnemonic_inj :
    ∀ r ∈ opcodeRows, ∀ q ∈ opcodeRows, r.mnemonic = q.mnemonic → r = q := by decide

theorem mem_opcodeRows_and_mnemonic_iff {r : OpcodeRow} {i : Instr} :
    r ∈ opcodeRows ∧ r.mnemonic = mnemonicOf i ↔ r = rowOf i := by
  constructor
  · rintro ⟨hr, hm⟩
    exact opcodeRows_mnemonic_inj r hr (rowOf i) (rowOf_mem i) hm
  · rintro rfl
    exact ⟨rowOf_mem i, rfl⟩

/-- A word matches the row of a command where its upper fields are that command's. -/
theorem matches_rowOf_iff {w : Half} {i : Instr} :
    w &&& (rowOf i).mask = (rowOf i).pattern ↔ cmdOpcode w = opcodeOf i ∧ cmdZero w = 0#4 := by
  simp only [rowOf, and_rowMask_eq, fields_inj, and_true]

theorem exists_row_matches_iff {w : Half} {i : Instr} :
    (∃ r ∈ opcodeRows, r.mnemonic = mnemonicOf i ∧ w &&& r.mask = r.pattern) ↔
      cmdOpcode w = opcodeOf i ∧ cmdZero w = 0#4 := by
  simp only [← and_assoc, mem_opcodeRows_and_mnemonic_iff, exists_eq_left, matches_rowOf_iff]

/-- Settles O2: matching a row and decoding to its command are the same condition on the upper fields. -/
theorem decoderFollowsOpcodeMap : Obligations.DecoderFollowsOpcodeMap := by
  refine ⟨fun w i => ?_, fun hi lo lo' i hne h => decode_append_ignores_operand hne h lo', fun i hne => ?_⟩
  · rw [decode_eq_ok_iff, exists_row_matches_iff, cmdOperand]
  · refine (cmdOperand_fields _ _ _).trans ?_
    cases i with
    | rxByte b => exact absurd rfl (hne b)
    | _ => rfl

/-- Settles O1. -/
theorem decodeReadsBackEncode : Obligations.DecodeReadsBackEncode :=
  fun i _ => decode_encode i

/-- Settles O3. -/
theorem illegalWordsAreTheReservedOnes : Obligations.IllegalWordsAreTheReservedOnes :=
  fun _ => decode_eq_error_iff

/-- Settles O4, by running the decoder on each word. -/
theorem writtenOutWordsDecode : Obligations.WrittenOutWordsDecode := by
  unfold Obligations.WrittenOutWordsDecode
  decide

end Sys2Proof

namespace Sys2Proof.Machine

/-! ## The inputs of a step -/

/-- The presented input of a reset selects the reset, whatever its word (30_encoding.md R85). -/
theorem selectInput_eq_reset {inp : PortInput} (h : inp.rst = true) : selectInput inp = .reset := by
  simp [selectInput, h]

/-- What a presented input makes of a node: a reset, the report of an illegal word, or an effect of a command
(45_control.md R188). -/
theorem stepInput_next {inp : PortInput} {s t : State} (h : stepInput inp s = .next t) :
    (selectInput inp = .reset ∧ t = resetNode { s with msgIn := inp.msgIn }) ∨
    (∃ e, selectInput inp = .illegal e ∧ t = illegalCommand { s with msgIn := inp.msgIn }) ∨
    (∃ i, selectInput inp = .command i ∧ Effect { s with msgIn := inp.msgIn } i t) := by
  rcases step_cons_next rfl h with hreset | hillegal | ⟨i, hsel, hi⟩
  · exact .inl hreset
  · exact .inr (.inl hillegal)
  · exact .inr (.inr ⟨i, hsel, exec_effect hi⟩)

/-- Settles O7: both are `resetNode`. -/
theorem resetInputDoesWhatSresetDoes : Obligations.ResetInputDoesWhatSresetDoes := by
  intro s inp rest hp hr
  rw [step_cons hp, selectInput_eq_reset hr]
  exact (execSreset_eq _).symm

theorem MsgIn.byte_of_lt {m : MsgIn} {k : Nat} (h : k < m.data.length) : m.byte k = m.data[k] :=
  List.getD_eq_getElem _ _ h

/-- Where the data reaches that far, the offered payload is its first `len` bytes (30_encoding.md R80). -/
theorem MsgIn.offered_eq_take {m : MsgIn} (h : m.len.toNat ≤ m.data.length) :
    m.offered = m.data.take m.len.toNat := by
  refine List.ext_getElem (by simpa using h) fun k hk _ => ?_
  rw [MsgIn.offered_length] at hk
  simp [MsgIn.offered, MsgIn.byte_of_lt (Nat.lt_of_lt_of_le hk h)]

/-- Settles O26. -/
theorem offeredPayloadIsTheFirstLenBytes : Obligations.OfferedPayloadIsTheFirstLenBytes := by
  refine fun m => ⟨m.offered_length, MsgIn.offered_eq_take, fun junk h => ?_⟩
  have hlen : (m.data.take m.len.toNat).length = m.len.toNat := List.length_take_of_le h
  rw [MsgIn.offered_eq_take h, MsgIn.offered_eq_take (by simp [h])]
  exact List.take_left' hlen

/-! ## The layout of a frame (30_encoding.md R70, 40_framer.md R100) -/

theorem encodeFrame_eq (p : Payload) :
    encodeFrame p = hiByte (BitVec.ofNat 16 p.length) :: loByte (BitVec.ofNat 16 p.length) :: cks p :: p := rfl

theorem encodeFrame_length (p : Payload) : (encodeFrame p).length = p.length + 3 := rfl

theorem hiByte_ofNat {n : Nat} (h : n ≤ 65535) : hiByte (BitVec.ofNat 16 n) = BitVec.ofNat 8 (n / 256) := by
  apply BitVec.eq_of_toNat_eq
  simp only [hiByte, BitVec.extractLsb'_toNat, BitVec.toNat_ofNat, Nat.shiftRight_eq_div_pow]
  omega

theorem loByte_ofNat (n : Nat) : loByte (BitVec.ofNat 16 n) = BitVec.ofNat 8 (n % 256) := by
  apply BitVec.eq_of_toNat_eq
  simp only [loByte, BitVec.extractLsb'_toNat, BitVec.toNat_ofNat, Nat.shiftRight_zero]
  omega

theorem frameOf_eq_some_iff {c : Config} {p : Payload} {f : List Byte} :
    frameOf c p = some f ↔ p.length ≤ c.maxPayload ∧ encodeFrame p = f := by
  simp [frameOf]

/-- The payload is what stands behind the three bytes of the header. -/
theorem encodeFrame_injective : Function.Injective encodeFrame :=
  fun _ _ h => congrArg (List.drop 3) h

/-- Settles O31. -/
theorem frameLayoutIsInjective : Obligations.FrameLayoutIsInjective := by
  refine ⟨fun p hp => ?_, fun c p f hf => ?_, fun _ _ h => encodeFrame_injective h⟩
  · rw [encodeFrame_eq, hiByte_ofNat hp, loByte_ofNat]
  · obtain ⟨hfits, rfl⟩ := frameOf_eq_some_iff.1 hf
    exact ⟨encodeFrame_length p, Nat.add_le_add_right hfits 3⟩

/-! ## The events of a step (30_encoding.md R86) -/

section
variable {i : Instr} {s t : State}

/-- A transition for any cause but a collision reports the new phase only (43_scheduler.md R153). -/
theorem transitionEvents_of_ne {c : Cause} (h : c ≠ .collision) (r : ActiveRole) :
    transitionEvents r c = [phaseEvent r] :=
  if_neg h

/-- A command other than `RX_BYTE` in role `Transmit` reports at most one event. -/
theorem Effect.events_cases (h : Effect s i t) :
    t.out.events.length ≤ 1 ∨
      ((∃ b, i = .rxByte b) ∧ s.role = .transmit ∧ t.out.events = [.collision, .phaseRx]) := by
  cases h with
  | collide b hrole => exact .inr ⟨⟨b, rfl⟩, hrole, by rw [transition_out]; rfl⟩
  | feed b hrole =>
    rcases handOff_out (feedByte b { s with occ := true, out := .quiet }) with ho | ho <;> rw [ho, feedByte_out]
    · exact .inl (Nat.zero_le 1)
    · exact .inl (Nat.le_refl 1)
  | startupEnds | phaseEnds | toggle =>
    rw [transition_out, transitionEvents_of_ne (by decide)]
    exact .inl (Nat.le_refl 1)
  | dequeue x q hrole hq => cases x <;> exact .inl (by simp)
  | reset => exact .inl (Nat.zero_le 1)
  | _ => exact .inl (by simp [StepOut.quiet])

/-! ## The wire (30_encoding.md R83) -/

/-- The one effect that puts bytes on the wire is the end of a clear sense window, and they are the frame of the oldest
message (42_occupancy_gate.md R138, R140). -/
theorem Effect.wire_cases (h : Effect s i t) :
    t.out.wireOut = [] ∨
      (i = .tick ∧ windowOpen s ∧ s.senseCnt + 1 = s.cfg.senseTicks ∧ s.occ = false ∧
        t.out.events = [.txSuccess] ∧ t.gate = .gIdle ∧
        ∃ p q, s.outQ = p :: q ∧ frameOf s.cfg p = some t.out.wireOut ∧ t.outQ = q) := by
  cases h with
  | windowSends p q hopen hcnt hsense hq hocc hlen =>
    exact .inr ⟨rfl, hopen, hsense, hocc, rfl, rfl, p, q, hq, frameOf_eq_some_iff.2 ⟨hlen, rfl⟩, rfl⟩
  | collide | startupEnds | phaseEnds | toggle => exact .inl (transition_silent StepOut.quiet_silent _ _).1
  | feed b hrole => exact .inl (handOff_silent (by rw [feedByte_out]; exact StepOut.quiet_silent)).1
  | _ => exact .inl rfl

end

/-- Settles O39: of all effects of a step only the collision of a byte in role `Transmit` reports two events. -/
theorem atMostTwoEventsInOrder : Obligations.AtMostTwoEventsInOrder := by
  intro inp s t h
  rcases stepInput_next h with ⟨_, rfl⟩ | ⟨_, _, rfl⟩ | ⟨i, hsel, he⟩
  · simp [resetNode, State.resetOf, StepOut.quiet]
  · simp [illegalCommand, StepOut.quiet]
  · rcases he.events_cases with hone | ⟨⟨b, rfl⟩, hrole, hevents⟩
    · exact ⟨by omega, fun htwo => by omega⟩
    · exact ⟨by rw [hevents]; exact Nat.le_refl 2, fun _ => ⟨⟨b, hsel⟩, hrole, hevents⟩⟩

/-- Settles O40: a reset and an illegal word are silent, and of the effects of a command only the end of a clear window
sends. -/
theorem wireCarriesOnlyWholeFrames : Obligations.WireCarriesOnlyWholeFrames := by
  intro inp s t h hwire
  rcases stepInput_next h with ⟨_, rfl⟩ | ⟨_, _, rfl⟩ | ⟨i, hsel, he⟩
  · exact absurd rfl hwire
  · exact absurd (illegalCommand_silent _).1 hwire
  · obtain ⟨rfl, ⟨hrole, hgate⟩, hsense, hocc, hsent⟩ := he.wire_cases.resolve_left hwire
    exact ⟨hsel, hrole, hgate, hsense, hocc, hsent⟩

end Sys2Proof.Machine

/-! SUPPORT. The statements of spec/40_framer.md: the checksum is the sum of the bytes (R101), and `TICK`, the one
command that builds a frame, stops exactly where the model says that it has none to build (R102; logs 7 and 9). -/

namespace Sys2Proof.Machine

/-! ## The checksum (40_framer.md R101) -/

@[simp] theorem cks_nil : cks [] = 0#8 := rfl

@[simp] theorem cks_cons (b : Byte) (p : Payload) : cks (b :: p) = b + cks p := by
  simp [cks, BitVec.ofNat_add]

/-- Wrapping after every byte or once at the end is the same sum. -/
theorem cks_eq_sum (p : Payload) : cks p = p.sum := by
  induction p with
  | nil => rfl
  | cons b p ih => rw [cks_cons, ih, List.sum_cons]

theorem cks_append (p q : Payload) : cks (p ++ q) = cks p + cks q := by
  simp only [cks_eq_sum, List.sum_append]

/-- Settles O30: `cks` is a sum in the commutative monoid of bytes. -/
theorem checksumIsTheByteSum : Obligations.ChecksumIsTheByteSum := by
  refine ⟨fun p => ?_, fun p q hperm => ?_, fun p q => ?_⟩
  · exact (cks_eq_sum p).trans List.sum_eq_foldl
  · rw [cks_eq_sum, cks_eq_sum, hperm.sum_eq]
  · rw [cks_append, cks_append, cks_cons, BitVec.zero_add]

/-! ## Where a sense window ends in a stop (42_occupancy_gate.md R138) -/

/-- DESIGN CHOICE of the model (log 7): there is no head to remove from an empty queue. -/
theorem resolve_popEmpty {s : State} (hq : s.outQ = []) : resolve s = .fault .popEmpty := by
  simp only [resolve, popOut_nil hq]

/-- DESIGN CHOICE of the model (log 9): `encode` has no value for a payload over `MAX_PAYLOAD` (40_framer.md R102). -/
theorem resolve_oversize {s : State} {p : Payload} {q : List Payload} (hq : s.outQ = p :: q) (ho : s.occ = false)
    (hp : s.cfg.maxPayload < p.length) : resolve s = .refused .encodeOversize := by
  have hframe : frameOf s.cfg p = none := if_neg (Nat.not_le.2 hp)
  simp only [resolve, popOut_cons hq, ho, Bool.false_eq_true, if_false, sendFrame, State.setGate_cfg,
    State.setOutQ_cfg, hframe]

/-! ## Where `TICK` stops, and that it stops nowhere else -/

/-- The window ends with nothing in `out_q` (log 7). -/
abbrev EndsWithEmptyQueue (s : State) : Prop :=
  s.role = .transmit ∧ s.gate = .gSense ∧ s.phaseCnt + 1 ≠ s.cfg.phaseTicks ∧ s.senseCnt + 1 = s.cfg.senseTicks ∧
    s.outQ = []

/-- The window ends clear with an oversize payload at the head of `out_q` (log 9). -/
abbrev EndsWithOversizeHead (s : State) : Prop :=
  s.role = .transmit ∧ s.gate = .gSense ∧ s.phaseCnt + 1 ≠ s.cfg.phaseTicks ∧ s.senseCnt + 1 = s.cfg.senseTicks ∧
    s.occ = false ∧ ∃ p q, s.outQ = p :: q ∧ s.cfg.maxPayload < p.length

theorem execTick_windowEnds {s : State} (h : windowEnds s) :
    execTick s = resolve { s with phaseCnt := s.phaseCnt + 1, out := .quiet } := by
  obtain ⟨hopen, hphase, hsense⟩ := h
  exact (execTick_window hopen hphase).trans (if_pos hsense)

theorem tick_popEmpty {s : State} (h : EndsWithEmptyQueue s) : exec .tick s = .fault .popEmpty := by
  obtain ⟨hrole, hgate, hphase, hsense, hq⟩ := h
  exact (execTick_windowEnds ⟨⟨hrole, hgate⟩, hphase, hsense⟩).trans (resolve_popEmpty hq)

theorem tick_oversize {s : State} (h : EndsWithOversizeHead s) : exec .tick s = .refused .encodeOversize := by
  obtain ⟨hrole, hgate, hphase, hsense, hocc, p, q, hq, hp⟩ := h
  exact (execTick_windowEnds ⟨⟨hrole, hgate⟩, hphase, hsense⟩).trans (resolve_oversize hq hocc hp)

theorem Role.exists_active {r : Role} (h : r ≠ .idle) : ∃ a, r = roleOf a := by
  rcases (Role.cases r).resolve_left h with hr | hr
  · exact ⟨.transmit, hr⟩
  · exact ⟨.receive, hr⟩

/-- A tick that ends no window always completes: it ends the startup or the phase, or it counts. -/
theorem tick_completes_of_not_windowEnds {s : State} (h : ¬ windowEnds s) : ∃ t, exec .tick s = .next t := by
  by_cases hidle : s.role = .idle
  · by_cases hstart : s.startupCnt + 1 = s.cfg.startupTicks
    · exact ⟨_, (Effect.startupEnds hidle hstart).exec_next⟩
    · exact ⟨_, (Effect.startupCounts hidle hstart).exec_next⟩
  · by_cases hphase : s.phaseCnt + 1 = s.cfg.phaseTicks
    · obtain ⟨r, hr⟩ := Role.exists_active hidle
      exact ⟨_, (Effect.phaseEnds r hr hphase).exec_next⟩
    · by_cases hopen : windowOpen s
      · exact ⟨_, (Effect.windowCounts hopen hphase fun hsense => h ⟨hopen, hphase, hsense⟩).exec_next⟩
      · exact ⟨_, (Effect.phaseCounts hidle hphase hopen).exec_next⟩

/-- The end of a window completes with a head to remove that is lost to a collision or fits a frame. -/
theorem tick_completes {s : State} (hempty : ¬ EndsWithEmptyQueue s) (hover : ¬ EndsWithOversizeHead s) :
    ∃ t, exec .tick s = .next t := by
  by_cases hends : windowEnds s
  · obtain ⟨⟨hrole, hgate⟩, hphase, hsense⟩ := hends
    cases hq : s.outQ with
    | nil => exact absurd ⟨hrole, hgate, hphase, hsense, hq⟩ hempty
    | cons p q =>
      cases hocc : s.occ with
      | true => exact ⟨_, (Effect.windowCollides p q ⟨hrole, hgate⟩ hphase hsense hq hocc).exec_next⟩
      | false =>
        have hfits : p.length ≤ s.cfg.maxPayload :=
          Nat.not_lt.1 fun hp => hover ⟨hrole, hgate, hphase, hsense, hocc, p, q, hq, hp⟩
        exact ⟨_, (Effect.windowSends p q ⟨hrole, hgate⟩ hphase hsense hq hocc hfits).exec_next⟩
  · exact tick_completes_of_not_windowEnds hends

/-- Every `TICK` is one of the two stops, under its condition, or completes. -/
theorem tick_outcome (s : State) :
    (EndsWithEmptyQueue s ∧ exec .tick s = .fault .popEmpty) ∨
    (EndsWithOversizeHead s ∧ exec .tick s = .refused .encodeOversize) ∨ ∃ t, exec .tick s = .next t := by
  by_cases hempty : EndsWithEmptyQueue s
  · exact .inl ⟨hempty, tick_popEmpty hempty⟩
  · by_cases hover : EndsWithOversizeHead s
    · exact .inr (.inl ⟨hover, tick_oversize hover⟩)
    · exact .inr (.inr (tick_completes hempty hover))

theorem tick_popEmpty_iff (s : State) : exec .tick s = .fault .popEmpty ↔ EndsWithEmptyQueue s := by
  refine ⟨fun h => ?_, tick_popEmpty⟩
  rcases tick_outcome s with ⟨hempty, _⟩ | ⟨_, hr⟩ | ⟨t, ht⟩
  · exact hempty
  · rw [hr] at h; cases h
  · rw [ht] at h; cases h

theorem tick_oversize_iff (s : State) : exec .tick s = .refused .encodeOversize ↔ EndsWithOversizeHead s := by
  refine ⟨fun h => ?_, tick_oversize⟩
  rcases tick_outcome s with ⟨_, hf⟩ | ⟨hover, _⟩ | ⟨t, ht⟩
  · rw [hf] at h; cases h
  · exact hover
  · rw [ht] at h; cases h

/-- An open window has a message to send (10_state.md R32). -/
theorem State.Inv.not_endsWithEmptyQueue {s : State} (h : s.Inv) : ¬ EndsWithEmptyQueue s := by
  obtain ⟨_, _, _, ⟨hopen, _, _⟩, _, _, _⟩ := h
  rintro ⟨_, hgate, _, _, hq⟩
  obtain ⟨_, hne, _⟩ := hopen hgate
  exact hne hq

/-- `out_q` holds no payload over `MAX_PAYLOAD` (44_queues.md R173). -/
theorem State.Inv.not_endsWithOversizeHead {s : State} (h : s.Inv) : ¬ EndsWithOversizeHead s := by
  obtain ⟨_, _, _, _, _, ⟨_, _, hpayload, _⟩, _⟩ := h
  rintro ⟨_, _, _, _, _, p, q, hq, hp⟩
  exact Nat.not_le.2 hp (hpayload p (by rw [hq]; exact List.mem_cons_self))

/-- Settles O17: the cases of a tick, of which the invariant of the gate and that of the queues exclude the stops. -/
theorem tickStopsOnlyOutsideTheInvariant : Obligations.TickStopsOnlyOutsideTheInvariant := fun s =>
  ⟨tick_popEmpty_iff s, tick_oversize_iff s, tick_completes,
    fun h => tick_completes h.not_endsWithEmptyQueue h.not_endsWithOversizeHead⟩

end Sys2Proof.Machine

/-! SUPPORT. The statements of spec/41_reassembler.md: `RX_BYTE` in each role (R120 to R123) and in each phase of a
frame (R111 to R117), that it and every other command completes (R110, R120), and what the reassembler makes of a whole
frame (R124 to R126). The whole frame goes by one induction over its payload bytes, with `Collecting` as its
invariant. -/

namespace Sys2Proof.Machine

/-! ## A length and its two bytes (30_encoding.md R71) -/

theorem hiByte_joinBytes (hi lo : Byte) : hiByte (joinBytes hi lo) = hi := by
  rw [hiByte, joinBytes, BitVec.extractLsb'_append_eq_of_le (by decide)]
  exact BitVec.extractLsb'_eq_self

theorem joinBytes_hiByte_loByte (v : Half) : joinBytes (hiByte v) (loByte v) = v := by
  have hword : v.extractLsb' 8 8 ++ v.extractLsb' 0 8 = v.extractLsb' 0 16 :=
    BitVec.extractLsb'_append_extractLsb'_eq_extractLsb' (by decide)
  rw [joinBytes, hiByte, loByte, hword, BitVec.extractLsb'_eq_self]

theorem joinBytes_toNat (hi lo : Byte) : (joinBytes hi lo).toNat = 256 * hi.toNat + lo.toNat := by
  rw [joinBytes, BitVec.toNat_append, ← Nat.shiftLeft_add_eq_or_of_lt lo.isLt, Nat.shiftLeft_eq]
  omega

/-- The next position is the announced length exactly at the last payload byte (41_reassembler.md R116). -/
theorem succ_eq_iff_of_lt {p l : Half} (h : p.toNat < l.toNat) : p + 1#16 = l ↔ p.toNat + 1 = l.toNat := by
  rw [← BitVec.toNat_inj, toNat_succ_of_lt h]

/-! ## The judgement of a frame (41_reassembler.md R117) -/

/-- What a frame with checksum byte `c` and payload bytes `bs` is judged to be by a buffer of `cap` bytes: what is
stored alone decides, and is all that is delivered (41_reassembler.md R117, R126). -/
def judge (cap : Nat) (c : Byte) (bs : List Byte) : FeedResult :=
  if cks (bs.take cap) = c then .frameReady (bs.take cap) else .checksumError

theorem reportable_judge (cap : Nat) (c : Byte) (bs : List Byte) : reportable (judge cap c bs) = [judge cap c bs] := by
  rw [judge]
  split <;> rfl

/-- The buffer is not too short for the payload (41_reassembler.md R124). -/
theorem judge_of_length_le {cap : Nat} {bs : List Byte} (h : bs.length ≤ cap) (c : Byte) :
    judge cap c bs = if cks bs = c then .frameReady bs else .checksumError := by
  rw [judge, List.take_of_length_le h]

/-! ## A byte that arrives in role `Receive` (41_reassembler.md R121) -/

section
variable {b : Byte} {s t : State}

/-- An incomplete result hands nothing to the inbound queue. -/
theorem exec_rxByte_of_incomplete (hrole : s.role = .receive)
    (h : feedByte b { s with occ := true, out := .quiet } = (.incomplete, t)) : exec (.rxByte b) s = .next t := by
  have hexec := (Effect.feed b hrole).exec_next
  rwa [h] at hexec

/-- A judged frame goes to the inbound queue as a payload or as an error token. -/
theorem exec_rxByte_of_judged {ok : Prop} [Decidable ok] {p : Payload} (hrole : s.role = .receive)
    (h : feedByte b { s with occ := true, out := .quiet } = (if ok then .frameReady p else .checksumError, t)) :
    exec (.rxByte b) s = .next (pushIn (if ok then .payload p else .errChecksum) t) := by
  have hexec := (Effect.feed b hrole).exec_next
  rw [h] at hexec
  by_cases hok : ok
  · rw [if_pos hok] at hexec ⊢; exact hexec
  · rw [if_neg hok] at hexec ⊢; exact hexec

end

/-! ## The store of a payload byte (41_reassembler.md R115) -/

section
variable {b : Byte} {s t : State}

/-- In a state with the buffer that the store leaves: the byte stands at its position where the buffer reaches that
far. -/
theorem bufRead_stored_self (hbuf : t.rsBuf = (storePayloadByte b s).rsBuf) (hepoch : t.bufEpoch = s.bufEpoch)
    (hroom : s.rsPos.toNat < s.cfg.rxBufCap) : bufRead t s.rsPos.toNat = b := by
  have hread := bufRead_storePayloadByte s b s.rsPos.toNat
  rw [if_pos ⟨rfl, hroom⟩, bufRead, storePayloadByte_bufEpoch] at hread
  rw [bufRead, hbuf, hepoch, hread]

/-- In a state with the buffer that the store leaves: every other byte reads as before. -/
theorem bufRead_stored_other (hbuf : t.rsBuf = (storePayloadByte b s).rsBuf) (hepoch : t.bufEpoch = s.bufEpoch)
    {a : Nat} (ha : s.rsPos.toNat < s.cfg.rxBufCap → a ≠ s.rsPos.toNat) : bufRead t a = bufRead s a := by
  have hread := bufRead_storePayloadByte s b a
  rw [if_neg fun ⟨hpos, hroom⟩ => ha (hpos ▸ hroom) hpos, bufRead, storePayloadByte_bufEpoch] at hread
  rw [bufRead, hbuf, hepoch, hread]

end

theorem bufPrefix_succ (s : State) (k : Nat) : bufPrefix s (k + 1) = bufPrefix s k ++ [bufRead s k] := by
  simp [bufPrefix, List.range_succ]

/-- What a completion judges: the stored bytes, the one stored last included. -/
theorem bufPrefix_store (b : Byte) (s : State) :
    bufPrefix (storePayloadByte b s) (storedLen s) =
      (List.range (min s.rsLen.toNat s.cfg.rxBufCap)).map fun a => if a = s.rsPos.toNat then b else bufRead s a := by
  refine List.map_congr_left fun a ha => ?_
  have hroom : a < s.cfg.rxBufCap := Nat.lt_of_lt_of_le (List.mem_range.1 ha) (Nat.min_le_right _ _)
  simp only [bufRead_storePayloadByte, hroom, and_true]

/-! ## The transition of a collision (43_scheduler.md R151) -/

/-- A transition that finds no window open leaves the gate and the queue (43_scheduler.md R151). -/
theorem transition_of_closed {s : State} (h : ¬ windowOpen s) (r : ActiveRole) (c : Cause) :
    transition r c s =
      { s with
        rsPhase := .awaitLengthHigh, rsPos := 0#16, occ := false, role := roleOf r, phaseCnt := 0, startupCnt := 0
        out := { s.out with events := s.out.events ++ transitionEvents r c } } := by
  rw [transition_eq, if_neg h, if_neg h, if_neg fun hw => h hw.1]

/-- A collision that finds a window open cancels it and loses its message (42_occupancy_gate.md R139). -/
theorem transition_collision_of_open {s : State} (h : windowOpen s) (r : ActiveRole) :
    transition r .collision s =
      { s with
        rsPhase := .awaitLengthHigh, rsPos := 0#16, occ := false, role := roleOf r, phaseCnt := 0, startupCnt := 0
        gate := .gIdle, senseCnt := 0, outQ := s.outQ.tail
        out := { s.out with events := s.out.events ++ transitionEvents r .collision } } := by
  rw [transition_eq, if_pos h, if_pos h, if_pos ⟨h, rfl⟩]

/-! ## `RX_BYTE` in each role and phase (41_reassembler.md R111 to R117, R120 to R123) -/

/-- Settles O19. -/
theorem rxByteInIdleOnlyMarks : Obligations.RxByteInIdleOnlyMarks :=
  fun b _ hrole => (Effect.mark b hrole).exec_next

/-- Settles O20: the transition of a collision, without and with a window to cancel. -/
theorem rxByteInTransmitCollides : Obligations.RxByteInTransmitCollides := by
  intro b s hrole
  have hexec := (Effect.collide b hrole).exec_next
  refine ⟨fun hgate => ?_, fun p q hgate hq => ?_⟩
  · rw [transition_of_closed (by simp [windowOpen, hgate])] at hexec
    exact hexec
  · have hopen : windowOpen { s with occ := true, out := .quiet } := ⟨hrole, hgate⟩
    rw [transition_collision_of_open hopen, hq] at hexec
    exact hexec

/-- Settles O21. -/
theorem rxByteStoresTheLengthBytes : Obligations.RxByteStoresTheLengthBytes := fun b _ hrole =>
  ⟨fun hphase => exec_rxByte_of_incomplete hrole (feedByte_awaitLengthHigh b hphase),
    fun hphase => exec_rxByte_of_incomplete hrole (feedByte_awaitLengthLow b hphase)⟩

/-- Settles O22: a frame without payload is judged on its checksum byte. -/
theorem rxByteTakesTheChecksumByte : Obligations.RxByteTakesTheChecksumByte := by
  intro b s hrole hphase
  have hempty (hlen : s.rsLen = 0#16) :=
    exec_rxByte_of_judged hrole (feedByte_awaitChecksum_zero (s := { s with occ := true, out := .quiet }) b hphase hlen)
  refine ⟨fun hlen => exec_rxByte_of_incomplete hrole (feedByte_awaitChecksum_pos b hphase hlen),
    fun hlen hroom => ?_, fun hlen hfull => ?_⟩
  · rw [hempty hlen, pushIn_eq]
    simp [hroom, StepOut.quiet]
  · rw [hempty hlen, pushIn_eq]
    simp [hfull, StepOut.quiet]

/-- Settles O23: the store, then the advance. -/
theorem rxByteStoresAPayloadByte : Obligations.RxByteStoresAPayloadByte := by
  intro b s hrole hphase hmore
  have hlt : s.rsPos.toNat < s.rsLen.toNat := Nat.lt_of_succ_lt hmore
  have hne : s.rsPos + 1#16 ≠ s.rsLen := fun h => hmore.ne ((succ_eq_iff_of_lt hlt).1 h)
  have hexec := exec_rxByte_of_incomplete hrole (feedByte_awaitPayload_more b hphase hne)
  refine ⟨_, hexec, toNat_succ_of_lt hlt, fun hroom => ?_, fun a ha => ?_, rfl⟩
  · exact bufRead_stored_self (s := { s with occ := true, out := .quiet }) (by rfl) (by rfl) hroom
  · exact bufRead_stored_other (s := { s with occ := true, out := .quiet }) (by rfl) (by rfl) ha

/-- Settles O24: the store, then the judgement of what is then stored. -/
theorem rxByteCompletesTheFrame : Obligations.RxByteCompletesTheFrame := by
  intro b s hrole hphase hlast p item
  have heq : s.rsPos + 1#16 = s.rsLen := (succ_eq_iff_of_lt (Nat.lt_of_succ_le hlast.le)).2 hlast
  have hfed := feedByte_awaitPayload_last (s := { s with occ := true, out := .quiet }) b hphase heq
  rw [bufPrefix_store] at hfed
  have hexec := exec_rxByte_of_judged hrole hfed
  rw [pushIn_eq] at hexec
  refine ⟨_, hexec, fun hroom => ?_, fun a ha => ?_, ?_⟩
  · exact bufRead_stored_self (s := { s with occ := true, out := .quiet }) (by rfl) (by rfl) hroom
  · exact bufRead_stored_other (s := { s with occ := true, out := .quiet }) (by rfl) (by rfl) ha
  · by_cases hfull : s.inQ.length = s.cfg.queueCap
    · simp only [hfull, if_true]; rfl
    · simp only [hfull, if_false]; rfl

/-! ## Every command completes -/

/-- `RX_BYTE` is enabled in every state (41_reassembler.md R120). -/
theorem exec_rxByte_completes (b : Byte) (s : State) : ∃ t, exec (.rxByte b) s = .next t := by
  rcases Role.cases s.role with hr | hr | hr
  · exact ⟨_, (Effect.mark b hr).exec_next⟩
  · exact ⟨_, (Effect.collide b hr).exec_next⟩
  · exact ⟨_, (Effect.feed b hr).exec_next⟩

/-- `RX_BYTE` hands nothing to the application: that is for `DEQ_IN` (44_queues.md R175). -/
theorem execRxByte_msgOut {b : Byte} {s t : State} (h : execRxByte b s = .next t) : t.out.msgOut = none := by
  rcases execRxByte_next h with ⟨_, rfl⟩ | ⟨_, rfl⟩ | ⟨_, rfl⟩
  · rfl
  · rw [transition_out]; rfl
  · rcases handOff_out (feedByte b { s with occ := true, out := StepOut.quiet }) with ho | ho <;>
      rw [ho, feedByte_out] <;> rfl

/-- Settles O25: it completes in each role, and never sends or hands over anything. -/
theorem rxByteCompletesInEveryState : Obligations.RxByteCompletesInEveryState := by
  intro b s
  obtain ⟨t, ht⟩ := exec_rxByte_completes b s
  exact ⟨t, ht, execRxByte_ack ht, (execRxByte_silent ht).1, execRxByte_msgOut ht⟩

/-- Every command completes in a state with the invariants; for all but `TICK` any state will do. -/
theorem State.Inv.exec_completes {s : State} (h : s.Inv) (i : Instr) : ∃ t, exec i s = .next t := by
  cases i with
  | nop => exact ⟨_, rfl⟩
  | rxByte b => exact exec_rxByte_completes b s
  | tick => exact tick_completes h.not_endsWithEmptyQueue h.not_endsWithOversizeHead
  | manual => exact ⟨_, rfl⟩
  | enqOut => exact ⟨_, execEnqOut_eq s⟩
  | deqIn =>
    cases hq : s.inQ with
    | nil => exact ⟨_, execDeqIn_refused (.inr hq)⟩
    | cons x q =>
      by_cases hr : s.role = .receive
      · exact ⟨_, execDeqIn_takes hr hq⟩
      · exact ⟨_, execDeqIn_refused (.inl hr)⟩
  | trySend => exact ⟨_, execTrySend_eq s⟩
  | sreset => exact ⟨_, rfl⟩

theorem State.Inv.step_completes {s : State} (h : s.Inv) : ∃ t, step s = .next t := by
  cases hp : s.pending with
  | nil => exact ⟨s, step_nothing hp⟩
  | cons inp rest =>
    have hlatched : State.Inv { s with pending := rest, msgIn := inp.msgIn } := h
    rw [step_cons hp]
    cases selectInput inp with
    | nothing | reset | illegal _ => exact ⟨_, rfl⟩
    | command i => exact hlatched.exec_completes i

/-- Settles O46: progress is here, preservation is O44. -/
theorem noStepStopsTheBlock : Obligations.NoStepStopsTheBlock := by
  intro s h
  obtain ⟨t, ht⟩ := h.step_completes
  exact ⟨t, ht, everyStepKeepsTheInvariant s t h ht⟩

/-! ## A whole frame (41_reassembler.md R119, R124 to R126) -/

/-- A byte that completes nothing adds nothing to the results of its block. -/
theorem feedBlock_cons_incomplete {b : Byte} {s : State} (h : (feedByte b s).1 = .incomplete) (bs : List Byte) :
    feedBlock (b :: bs) s = feedBlock bs (feedByte b s).2 := by
  rw [feedBlock_cons, h]
  rfl

/-- The node follows a frame with announced length `n` and checksum byte `c`, and `bs` are the payload bytes that have
come so far: all are counted, and those the buffer reaches are stored. -/
structure Collecting (n : Nat) (c : Byte) (bs : List Byte) (s : State) : Prop where
  phase : s.rsPhase = .awaitPayload
  len : s.rsLen.toNat = n
  cks : s.rsCks = c
  pos : s.rsPos.toNat = bs.length
  more : bs.length < n
  stored : bufPrefix s (min bs.length s.cfg.rxBufCap) = bs.take s.cfg.rxBufCap

section
variable {n : Nat} {c b : Byte} {bs : List Byte} {s : State}

theorem Collecting.pos_lt_len (h : Collecting n c bs s) : s.rsPos.toNat < s.rsLen.toNat := by
  rw [h.pos, h.len]
  exact h.more

/-- The store of the next byte makes what is stored one byte longer, unless the buffer is full. -/
theorem Collecting.stored_store (h : Collecting n c bs s) (b : Byte) :
    bufPrefix (storePayloadByte b s) (min (bs.length + 1) s.cfg.rxBufCap) = (bs ++ [b]).take s.cfg.rxBufCap := by
  have hold := h.stored
  have hother {a : Nat} (ha : bs.length < s.cfg.rxBufCap → a ≠ bs.length) :
      bufRead (storePayloadByte b s) a = bufRead s a :=
    bufRead_stored_other rfl (storePayloadByte_bufEpoch b s) (by rwa [h.pos])
  by_cases hroom : bs.length < s.cfg.rxBufCap
  · have hnew : bufRead (storePayloadByte b s) bs.length = b := by
      rw [← h.pos] at hroom ⊢
      exact bufRead_stored_self rfl (storePayloadByte_bufEpoch b s) hroom
    have hkept : bufPrefix (storePayloadByte b s) bs.length = bufPrefix s bs.length :=
      bufPrefix_eq_of_forall fun a ha => hother fun _ => ha.ne
    rw [Nat.min_eq_left hroom.le, List.take_of_length_le hroom.le] at hold
    rw [Nat.min_eq_left hroom, List.take_of_length_le (by simpa using hroom), bufPrefix_succ, hkept, hold, hnew]
  · have hfull : s.cfg.rxBufCap ≤ bs.length := Nat.le_of_not_lt hroom
    have hkept : bufPrefix (storePayloadByte b s) s.cfg.rxBufCap = bufPrefix s s.cfg.rxBufCap :=
      bufPrefix_eq_of_forall fun a _ => hother fun h => absurd h hroom
    rw [Nat.min_eq_right hfull] at hold
    rw [Nat.min_eq_right (Nat.le_succ_of_le hfull), hkept, hold, List.take_append_of_le_length hfull]

/-- A payload byte before the last is taken in silence (41_reassembler.md R115, R116). -/
theorem Collecting.feedByte_more (h : Collecting n c bs s) (hmore : bs.length + 1 < n) :
    (feedByte b s).1 = .incomplete ∧ Collecting n c (bs ++ [b]) (feedByte b s).2 := by
  have hpos : (s.rsPos + 1#16).toNat = bs.length + 1 := by rw [toNat_succ_of_lt h.pos_lt_len, h.pos]
  have hne : s.rsPos + 1#16 ≠ s.rsLen := by
    rw [Ne, succ_eq_iff_of_lt h.pos_lt_len, h.pos, h.len]
    exact hmore.ne
  have hlen : (bs ++ [b]).length = bs.length + 1 := List.length_append
  rw [feedByte_awaitPayload_more b h.phase hne]
  refine ⟨rfl, h.phase, h.len, h.cks, hpos.trans hlen.symm, hlen ▸ hmore, ?_⟩
  dsimp only
  rw [hlen, ← h.stored_store b]
  exact bufPrefix_congr (by rfl) (by rw [storePayloadByte_bufEpoch]) _

/-- The last payload byte completes the frame (41_reassembler.md R116, R117). -/
theorem Collecting.feedByte_last (h : Collecting n c bs s) (hlast : bs.length + 1 = n) :
    (feedByte b s).1 = judge s.cfg.rxBufCap c (bs ++ [b]) ∧ (feedByte b s).2.rsPhase = .awaitLengthHigh ∧
      (feedByte b s).2.rsPos = 0#16 := by
  have heq : s.rsPos + 1#16 = s.rsLen := by rw [succ_eq_iff_of_lt h.pos_lt_len, h.pos, h.len, hlast]
  rw [feedByte_awaitPayload_last b h.phase heq, storedLen, h.len, ← hlast, h.stored_store b, h.cks]
  exact ⟨rfl, rfl, rfl⟩

/-- The rest of the payload: its last byte is answered by the judgement of the whole, the others by nothing. -/
theorem Collecting.feedBlock_rest {rest : List Byte} (h : Collecting n c bs s) (hne : rest ≠ [])
    (hlen : bs.length + rest.length = n) :
    (feedBlock rest s).1 = [judge s.cfg.rxBufCap c (bs ++ rest)] ∧ (feedBlock rest.dropLast s).1 = [] ∧
      (feedBlock rest s).2.rsPhase = .awaitLengthHigh ∧ (feedBlock rest s).2.rsPos = 0#16 := by
  induction rest generalizing bs s with
  | nil => exact absurd rfl hne
  | cons b rest ih =>
    cases rest with
    | nil =>
      obtain ⟨hres, hphase, hpos⟩ := h.feedByte_last (b := b) hlen
      refine ⟨?_, rfl, hphase, hpos⟩
      rw [feedBlock_cons, hres, reportable_judge]
      rfl
    | cons b' rest =>
      obtain ⟨hres, hnext⟩ := h.feedByte_more (b := b) (by simp at hlen; omega)
      have hrest := ih hnext (by simp) (by simp at hlen ⊢; omega)
      rw [List.append_assoc, feedByte_cfg] at hrest
      rw [List.dropLast_cons_cons, feedBlock_cons_incomplete hres, feedBlock_cons_incomplete hres]
      exact hrest

end

/-- The bytes of the header, one after the other, from the start of a frame (41_reassembler.md R111 to R113). -/
theorem feedBlock_length {s : State} (hstart : s.rsPhase = .awaitLengthHigh) (hi lo : Byte) (bs : List Byte) :
    feedBlock (hi :: lo :: bs) s = feedBlock bs { s with rsLen := joinBytes hi lo, rsPhase := .awaitChecksum } := by
  have hhigh := feedByte_awaitLengthHigh hi hstart
  have hlow := feedByte_awaitLengthLow (s := { s with rsLen := joinBytes hi 0#8, rsPhase := .awaitLengthLow }) lo rfl
  rw [feedBlock_cons_incomplete (by rw [hhigh]), hhigh, feedBlock_cons_incomplete (by rw [hlow]), hlow]
  simp only [hiByte_joinBytes]

/-- With the checksum byte of a frame that has payload, its collection begins. -/
theorem feedByte_checksum_collecting {s : State} {n : Nat} (hphase : s.rsPhase = .awaitChecksum)
    (hlen : s.rsLen.toNat = n) (hpos : 0 < n) (c : Byte) :
    (feedByte c s).1 = .incomplete ∧ Collecting n c [] (feedByte c s).2 := by
  have hne : s.rsLen ≠ 0#16 := fun h => by rw [h] at hlen; exact hpos.ne hlen
  rw [feedByte_awaitChecksum_pos c hphase hne]
  exact ⟨rfl, rfl, hlen, rfl, rfl, hpos, by simp [bufPrefix]⟩

/-- What the reassembler makes of a whole frame, whatever its payload and its checksum byte are: it answers the last
byte with the judgement of the frame, the others with nothing, and is then at the start of a frame. -/
theorem feedBlock_frame {s : State} {hi lo : Byte} {bs : List Byte} (hstart : s.rsPhase = .awaitLengthHigh)
    (hlen : bs.length = 256 * hi.toNat + lo.toNat) (c : Byte) :
    (feedBlock (hi :: lo :: c :: bs) s).1 = [judge s.cfg.rxBufCap c bs] ∧
    (feedBlock (hi :: lo :: c :: bs).dropLast s).1 = [] ∧
    (feedBlock (hi :: lo :: c :: bs) s).2.rsPhase = .awaitLengthHigh ∧
    (feedBlock (hi :: lo :: c :: bs) s).2.rsPos = 0#16 := by
  rw [← joinBytes_toNat] at hlen
  rw [List.dropLast_cons_cons, List.dropLast_cons_cons, feedBlock_length hstart, feedBlock_length hstart]
  cases bs with
  | nil =>
    have hjudge : judge s.cfg.rxBufCap c [] = if c = 0#8 then .frameReady [] else .checksumError := by
      rw [judge_of_length_le (Nat.zero_le _), cks_nil]
      simp only [eq_comm]
    rw [feedBlock_cons, feedByte_awaitChecksum_zero c rfl (BitVec.eq_of_toNat_eq hlen.symm), ← hjudge,
      reportable_judge]
    exact ⟨rfl, rfl, rfl, rfl⟩
  | cons b bs =>
    obtain ⟨hres, hcollecting⟩ := feedByte_checksum_collecting
      (s := { s with rsLen := joinBytes hi lo, rsPhase := .awaitChecksum }) rfl hlen.symm (by simp) c
    have hrest := hcollecting.feedBlock_rest (rest := b :: bs) (by simp) (by simp)
    rw [feedByte_cfg] at hrest
    rw [List.dropLast_cons_cons, feedBlock_cons_incomplete hres, feedBlock_cons_incomplete hres]
    exact hrest

/-- The header of a frame announces the length of its payload (30_encoding.md R70). -/
theorem length_eq_header {p : Payload} (h : p.length ≤ 65535) :
    p.length = 256 * (hiByte (BitVec.ofNat 16 p.length)).toNat + (loByte (BitVec.ofNat 16 p.length)).toNat := by
  rw [← joinBytes_toNat, joinBytes_hiByte_loByte, BitVec.toNat_ofNat, Nat.mod_eq_of_lt (by omega)]

theorem Config.length_le_of_legal {c : Config} (h : c.legal = true) {p : Payload} (hp : p.length ≤ c.maxPayload) :
    p.length ≤ 65535 := by
  simp only [Config.legal, Bool.and_eq_true, decide_eq_true_eq] at h
  omega

/-- A frame of a payload that fits the buffer is judged by its payload, all of it. -/
theorem feedBlock_encodeFrame {s : State} {p : Payload} (hlegal : s.cfg.legal = true)
    (hfits : p.length ≤ s.cfg.maxPayload) (hstart : s.rsPhase = .awaitLengthHigh) :
    (feedBlock (encodeFrame p) s).1 = [.frameReady p] ∧ (feedBlock (encodeFrame p).dropLast s).1 = [] ∧
      (feedBlock (encodeFrame p) s).2.rsPhase = .awaitLengthHigh ∧ (feedBlock (encodeFrame p) s).2.rsPos = 0#16 := by
  have hframe := feedBlock_frame hstart (length_eq_header (Config.length_le_of_legal hlegal hfits)) (cks p)
  rwa [← encodeFrame_eq, judge_of_length_le (cap := s.cfg.rxBufCap) hfits, if_pos rfl] at hframe

/-- Settles O32: the frame from this state and, for `deframe`, from the same state with the reassembler reset. -/
theorem frameRoundTrip : Obligations.FrameRoundTrip := by
  intro s p hlegal hfits hstart
  obtain ⟨hall, hbefore, hphase, hpos⟩ := feedBlock_encodeFrame hlegal hfits hstart
  obtain ⟨hreset, _⟩ := feedBlock_encodeFrame (s := resetReassembly s) hlegal hfits rfl
  exact ⟨hall, hbefore, hphase, hpos, by rw [deframe, hreset]⟩

/-- Changing one byte changes the sum. -/
theorem cks_set_ne {p : Payload} {i : Nat} {b : Byte} (hi : i < p.length) (hb : p[i]? ≠ some b) :
    cks (p.set i b) ≠ cks p := by
  have hsum : cks p = cks (p.take i) + (p[i] + cks (p.drop (i + 1))) := by
    rw [← cks_cons, ← cks_append, ← List.drop_eq_getElem_cons hi, List.take_append_drop]
  rw [List.set_eq_take_append_cons_drop, if_pos hi, cks_append, cks_cons, hsum]
  intro h
  have hbyte : b = p[i] := BitVec.add_left_inj _ |>.1 (BitVec.add_right_inj _ |>.1 h)
  exact hb (by rw [hbyte, List.getElem?_eq_getElem hi])

/-- Settles O33: the changed frame announces the same length and carries the old checksum. -/
theorem singlePayloadCorruptionIsDetected : Obligations.SinglePayloadCorruptionIsDetected := by
  intro s p i b hlegal hfits hstart hi hb
  have hset : (encodeFrame p).set (3 + i) b =
      hiByte (BitVec.ofNat 16 p.length) :: loByte (BitVec.ofNat 16 p.length) :: cks p :: p.set i b := by
    rw [encodeFrame_eq, Nat.add_comm]
    rfl
  have hlen := length_eq_header (Config.length_le_of_legal hlegal hfits)
  rw [← List.length_set (i := i) (a := b)] at hfits
  rw [hset, (feedBlock_frame hstart ((List.length_set ..).trans hlen) (cks p)).1,
    judge_of_length_le (cap := s.cfg.rxBufCap) hfits, if_neg (cks_set_ne hi hb)]

/-- Settles O34: the judgement of a frame, which looks at the stored bytes alone. -/
theorem oversizeFrameIsJudgedByItsPrefix : Obligations.OversizeFrameIsJudgedByItsPrefix := by
  intro s hi lo c bs _ hstart hlen _
  obtain ⟨hall, hbefore, _, _⟩ := feedBlock_frame hstart hlen c
  exact ⟨hall, hbefore⟩

end Sys2Proof.Machine

/-! SUPPORT. The statements of spec/42_occupancy_gate.md: who writes `occ` (R133), `TRY_SEND` (R134, R135), a `TICK`
that counts or ends a sense window (R137, R138) or cancels it with its phase (R139), that a `TICK` never finds the
channel occupied at the end of a window (R143), and that an undisturbed window sends (R142). The run through a window
goes by one induction over its inputs, with `InWindow` as its invariant. -/

namespace Sys2Proof.Machine

/-! ## `TRY_SEND` (42_occupancy_gate.md R134, R135) -/

/-- Settles O29: the effects of `TRY_SEND`. -/
theorem trySendOpensAWindowOrChangesNothing : Obligations.TrySendOpensAWindowOrChangesNothing := by
  refine ⟨by decide, fun s => ⟨fun hrole hgate hq => (Effect.openWindow ⟨hrole, hgate, hq⟩).exec_next, fun hno => ?_⟩⟩
  refine (Effect.trySendRefused ?_).exec_next
  rintro ⟨hrole, hgate, hq⟩
  simp [hrole, hgate, hq] at hno

/-! ## `TICK` in an active role (43_scheduler.md R155) -/

/-- A transition out of role `Transmit` for any cause but a collision cancels an open window and keeps its message
(42_occupancy_gate.md R139). -/
theorem transition_of_transmit {s : State} {c : Cause} (hrole : s.role = .transmit) (hc : c ≠ .collision)
    (r : ActiveRole) :
    transition r c s =
      { s with
        rsPhase := .awaitLengthHigh, rsPos := 0#16, occ := false, role := roleOf r, phaseCnt := 0, startupCnt := 0
        gate := .gIdle, senseCnt := if s.gate = .gSense then 0 else s.senseCnt
        out := { s.out with events := s.out.events ++ [phaseEvent r] } } := by
  have hopen : windowOpen s ↔ s.gate = .gSense := and_iff_right hrole
  have hclosed : (if s.gate = .gSense then .gIdle else s.gate) = Gate.gIdle := by cases s.gate <;> rfl
  rw [transition_eq, transitionEvents_of_ne hc]
  simp only [hopen, hc, hclosed, and_false, if_false]

/-- Settles O14: the transition of the periodic timer, without a window and with one to cancel. -/
theorem tickEndsThePhase : Obligations.TickEndsThePhase := by
  refine fun s hcnt => ⟨fun hrole => ?_, fun hrole => ?_⟩
  · have hexec := (Effect.phaseEnds .receive hrole hcnt).exec_next
    rw [transition_of_closed (by simp [windowOpen, hrole])] at hexec
    exact hexec
  · have hexec := (Effect.phaseEnds .transmit hrole hcnt).exec_next
    rw [transition_of_transmit (s := { s with out := .quiet }) hrole (by decide)] at hexec
    exact hexec

/-- Settles O15. -/
theorem tickCountsThePhaseAndTheWindow : Obligations.TickCountsThePhaseAndTheWindow := fun _ hrole hcnt =>
  ⟨fun hclosed => (Effect.phaseCounts hrole hcnt hclosed).exec_next,
    fun htransmit hgate hsense => (Effect.windowCounts ⟨htransmit, hgate⟩ hcnt hsense).exec_next⟩

/-! ## The end of a sense window (42_occupancy_gate.md R138) -/

/-- The high length byte of any number: `BitVec.ofNat` cuts it and its quotient alike. -/
theorem hiByte_ofNat_eq_div (n : Nat) : hiByte (BitVec.ofNat 16 n) = BitVec.ofNat 8 (n / 256) := by
  apply BitVec.eq_of_toNat_eq
  simp only [hiByte, BitVec.extractLsb'_toNat, BitVec.toNat_ofNat, Nat.shiftRight_eq_div_pow]
  omega

/-- The bytes of a frame as numbers (40_framer.md R100, R101). -/
theorem encodeFrame_eq_ofNat (p : Payload) :
    encodeFrame p =
      [BitVec.ofNat 8 (p.length / 256), BitVec.ofNat 8 (p.length % 256), BitVec.ofNat 8 (p.map BitVec.toNat).sum]
        ++ p := by
  rw [encodeFrame, hiByte_ofNat_eq_div, loByte_ofNat, cks]

/-- Settles O16: the two effects of a window's end. -/
theorem senseWindowEndsSendingOrColliding : Obligations.SenseWindowEndsSendingOrColliding := by
  refine fun s p q hrole hgate hcnt hsense hq => ⟨fun hocc hlen => ?_, fun hocc => ?_⟩
  · rw [← encodeFrame_eq_ofNat]
    exact (Effect.windowSends p q ⟨hrole, hgate⟩ hcnt hsense hq hocc hlen).exec_next
  · exact (Effect.windowCollides p q ⟨hrole, hgate⟩ hcnt hsense hq hocc).exec_next

/-! ## The writers of `occ` (42_occupancy_gate.md R133) -/

section
variable {i : Instr} {s t : State}

/-- Only a transition reports a phase change (43_scheduler.md R153). -/
theorem Effect.eq_transition_of_made (h : Effect s i t) (hmade : madeTransition t) :
    ∃ r c u, t = transition r c u := by
  cases h with
  | collide | startupEnds | phaseEnds | toggle => exact ⟨_, _, _, rfl⟩
  | feed b =>
    rcases handOff_out (feedByte b { s with occ := true, out := .quiet }) with ho | ho <;>
      · rw [madeTransition, ho, feedByte_out] at hmade
        simp [StepOut.quiet] at hmade
  | dequeue x => cases x <;> simp [madeTransition] at hmade
  | reset => simp [madeTransition, resetNode, State.resetOf, StepOut.quiet] at hmade
  | _ => simp [madeTransition, StepOut.quiet] at hmade

/-- Every byte marks the channel, and the collision of a byte in role `Transmit` clears the mark again
(42_occupancy_gate.md R132, R133). -/
theorem Effect.occ_of_rxByte {b : Byte} (h : Effect s (.rxByte b) t) : t.occ = decide (s.role ≠ .transmit) := by
  cases h with
  | mark _ hrole => simp [hrole]
  | collide _ hrole => simp [hrole]
  | feed _ hrole => simp [hrole]

theorem Effect.occ_of_trySend (h : Effect s .trySend t) (hack : t.out.ack = true) : t.occ = false := by
  cases h with
  | trySendRefused => cases hack
  | openWindow => rfl

end

/-- Settles O36: that nothing else writes `occ` is the list of its writers in O35. -/
theorem occupancyFlagWriters : Obligations.OccupancyFlagWriters := by
  intro i s t h
  have he := exec_effect h
  refine ⟨?_, ?_, fun hmade => ?_, ?_, fun hrx htry hmade hreset => ?_⟩
  · rintro ⟨b, rfl⟩
    exact he.occ_of_rxByte
  · rintro rfl
    exact he.occ_of_trySend
  · obtain ⟨r, c, u, rfl⟩ := he.eq_transition_of_made hmade
    exact transition_occ r c u
  · rintro rfl
    cases he with
    | reset => rfl
  · by_contra hne
    rcases he.writes_occ hne with ⟨⟨b, hb⟩, _⟩ | ⟨hi, hack, _⟩ | ⟨_, hmade', _⟩ | hi
    · exact hrx b hb
    · exact htry ⟨hi, hack⟩
    · exact hmade hmade'
    · exact hreset hi

/-! ## The collision branch of `resolve()` (42_occupancy_gate.md R143) -/

theorem phaseEvent_ne_collision (r : ActiveRole) : phaseEvent r ≠ .collision := by
  cases r <;> decide

/-- The one tick that reports a collision ends a window with the channel occupied. -/
theorem Effect.tick_collision {s t : State} (h : Effect s .tick t) (hev : Event.collision ∈ t.out.events) :
    windowOpen s ∧ s.occ = true := by
  cases h with
  | windowCollides p q hopen _ _ _ hocc => exact ⟨hopen, hocc⟩
  | startupEnds | phaseEnds =>
    rw [transition_out, transitionEvents_of_ne (by decide)] at hev
    exact absurd (List.mem_singleton.1 hev).symm (phaseEvent_ne_collision _)
  | _ => simp [StepOut.quiet] at hev

/-- Settles O47: in role `Transmit` the invariant has `occ` clear (10_state.md R40(g)). -/
theorem tickNeverReportsACollision : Obligations.TickNeverReportsACollision := by
  intro c s t hc hs h hev
  obtain ⟨⟨_, _, _, _, _, _, hflag⟩, _⟩ := reachableStatesHaveTheInvariant c s hc hs
  obtain ⟨⟨hrole, _⟩, hocc⟩ := (exec_effect h).tick_collision hev
  rw [hflag hrole] at hocc
  cases hocc

/-! ## The inputs and outputs of a run -/

theorem selectInput_cmdInput (i : Instr) : selectInput (cmdInput i) = .command i :=
  selectInput_eq_command rfl (decode_encode i)

theorem step_cmdInput (i : Instr) (s : State) :
    step (s.present (cmdInput i)) = exec i { s with msgIn := (cmdInput i).msgIn } := by
  rw [step_present, selectInput_cmdInput]

/-- One more input at the end of a run. -/
theorem runInputs_concat {is : List PortInput} {inp : PortInput} {s t u : State} {os : List StepOut}
    (h : runInputs is s = some (t, os)) (hstep : step (t.present inp) = .next u) :
    runInputs (is ++ [inp]) s = some (u, os ++ [u.out]) := by
  simp [runInputs_append, h, runInputs, hstep]

theorem acceptedPayloads_cons (inp : PortInput) (is : List PortInput) (o : StepOut) (os : List StepOut) :
    acceptedPayloads (inp :: is) (o :: os) = acceptedPayloads [inp] [o] ++ acceptedPayloads is os :=
  acceptedPayloads_append [inp] is (os := [o]) rfl

/-- Only `ENQ_OUT` accepts a payload (44_queues.md R174). -/
theorem acceptedPayloads_of_ne {inp : PortInput} (h : selectInput inp ≠ .command .enqOut) (o : StepOut) :
    acceptedPayloads [inp] [o] = [] := by
  simp [acceptedPayloads, h]

/-! ## The run through a sense window (42_occupancy_gate.md R142(a)) -/

/-- Outputs with nothing on the wire and no report of how a window ended. -/
abbrev StepOut.undecided (o : StepOut) : Prop :=
  o.wireOut = [] ∧ Event.txSuccess ∉ o.events ∧ Event.collision ∉ o.events

theorem StepOut.quiet_undecided : StepOut.quiet.undecided := by decide

theorem illegalCommand_undecided (s : State) : (illegalCommand s).out.undecided :=
  ⟨rfl, by simp [illegalCommand, StepOut.quiet], by simp [illegalCommand, StepOut.quiet]⟩

/-- What an undisturbing command can do in an open window that it does not end: a tick counts (42_occupancy_gate.md
R137), an accepted payload stands at the end of the queue, and everything else is refused or changes nothing. -/
theorem Effect.window_cases {i : Instr} {s t : State} (h : Effect s i t) (hopen : windowOpen s)
    (hundisturbing : (Selected.command i).undisturbing = true)
    (hgoes_on : i = .tick → s.phaseCnt + 1 ≠ s.cfg.phaseTicks ∧ s.senseCnt + 1 ≠ s.cfg.senseTicks) :
    (i = .tick ∧ t = { s with phaseCnt := s.phaseCnt + 1, senseCnt := s.senseCnt + 1, out := .quiet }) ∨
    (i = .enqOut ∧ t = { s with outQ := s.outQ ++ [s.msgIn.offered], out := .quiet }) ∨
    (i ≠ .tick ∧ (i = .enqOut → t.out.ack = false) ∧ t.out.undecided ∧ t = { s with out := t.out }) := by
  have ⟨hrole, hgate⟩ := hopen
  cases h with
  | windowCounts => exact .inl ⟨rfl, rfl⟩
  | enqueue => exact .inr (.inl ⟨rfl, rfl⟩)
  | nop | deqRefused | trySendRefused => exact .inr (.inr ⟨nofun, by simp, StepOut.quiet_undecided, rfl⟩)
  | enqOversize | enqFull => exact .inr (.inr ⟨nofun, by simp, ⟨rfl, by simp, by simp⟩, rfl⟩)
  | mark | collide | feed | toggle | reset => cases hundisturbing
  | startupEnds hidle | startupCounts hidle => rw [hrole] at hidle; cases hidle
  | phaseEnds _ _ hcnt => exact absurd hcnt (hgoes_on rfl).1
  | phaseCounts _ _ hclosed => exact absurd hopen hclosed
  | windowCollides _ _ _ _ hsense | windowSends _ _ _ _ hsense => exact absurd hsense (hgoes_on rfl).2
  | dequeue _ _ hreceive => rw [hrole] at hreceive; cases hreceive
  | openWindow henabled => rw [hgate] at henabled; cases henabled.2.1

/-- The node `u` is `n` ticks into the window that `TRY_SEND` opened in `s`, with the oldest message `p` to send and `q`
behind it; the phase of `s` outlasts the window. -/
structure InWindow (s : State) (p : Payload) (q : List Payload) (n : Nat) (u : State) : Prop where
  enough : s.phaseCnt + s.cfg.senseTicks < s.cfg.phaseTicks
  inv : u.Inv
  cfg : u.cfg = s.cfg
  role : u.role = .transmit
  gate : u.gate = .gSense
  sense : u.senseCnt = n
  phase : u.phaseCnt = s.phaseCnt + n
  queue : u.outQ = p :: q

section
variable {s t u : State} {p : Payload} {q : List Payload} {n : Nat} {inp : PortInput}

/-- An enabled `TRY_SEND` opens a window (42_occupancy_gate.md R134). -/
theorem exists_inWindow (hinv : s.Inv) (hrole : s.role = .transmit) (hgate : s.gate = .gIdle) (hq : s.outQ = p :: q)
    (henough : s.phaseCnt + s.cfg.senseTicks < s.cfg.phaseTicks) :
    ∃ u, step (s.present (cmdInput .trySend)) = .next u ∧ InWindow s p q 0 u ∧ u.out = .quiet := by
  have hpresented : (s.present (cmdInput .trySend)).Inv := hinv
  have hexec := (Effect.openWindow (s := { s with msgIn := (cmdInput .trySend).msgIn })
    ⟨hrole, hgate, by simp [hq]⟩).exec_next
  rw [← step_cmdInput] at hexec
  exact ⟨_, hexec, ⟨henough, everyStepKeepsTheInvariant _ _ hpresented hexec, rfl, hrole, rfl, rfl, rfl, hq⟩, rfl⟩

/-- A step of the window before its last tick keeps it a window: a tick counts, and an accepted payload stands behind. -/
theorem InWindow.goes_on (h : InWindow s p q n u) (hstep : step (u.present inp) = .next t)
    (hundisturbing : (selectInput inp).undisturbing = true) (hmore : n + countCommand .tick [inp] < s.cfg.senseTicks) :
    InWindow s p (q ++ acceptedPayloads [inp] [t.out]) (n + countCommand .tick [inp]) t ∧ t.out.undecided ∧
      (selectInput inp = .command .tick → t.out = .quiet) := by
  have hpresented : (u.present inp).Inv := h.inv
  have hinv := everyStepKeepsTheInvariant _ _ hpresented hstep
  have hcfg := (step_cfg hstep).trans h.cfg
  have ⟨henough, _, hucfg, hrole, hgate, hsense, hphase, hq⟩ := h
  rw [countCommand_cons, countCommand_nil, Nat.add_zero] at hmore ⊢
  rcases stepInput_next hstep with ⟨hsel, _⟩ | ⟨e, hsel, rfl⟩ | ⟨i, hsel, he⟩
  · rw [hsel] at hundisturbing; cases hundisturbing
  · rw [acceptedPayloads_of_ne (by simp [hsel]), List.append_nil, if_neg (by simp [hsel])]
    exact ⟨⟨henough, hinv, hcfg, hrole, hgate, hsense, hphase, hq⟩, illegalCommand_undecided _, by simp [hsel]⟩
  · have hgoes_on (hi : i = .tick) : u.phaseCnt + 1 ≠ u.cfg.phaseTicks ∧ u.senseCnt + 1 ≠ u.cfg.senseTicks := by
      rw [if_pos (by rw [hsel, hi])] at hmore
      rw [hucfg, hsense, hphase]
      omega
    rw [hsel] at hundisturbing
    rcases he.window_cases ⟨hrole, hgate⟩ hundisturbing hgoes_on with
      ⟨rfl, rfl⟩ | ⟨rfl, rfl⟩ | ⟨htick, henq, hundecided, ht⟩
    · rw [acceptedPayloads_of_ne (by simp [hsel]), List.append_nil, if_pos hsel]
      exact ⟨⟨henough, hinv, hcfg, hrole, hgate, congrArg (· + 1) hsense, congrArg (· + 1) hphase, hq⟩,
        StepOut.quiet_undecided, fun _ => rfl⟩
    · rw [if_neg (by simp [hsel])]
      refine ⟨⟨henough, hinv, hcfg, hrole, hgate, hsense, hphase, ?_⟩, StepOut.quiet_undecided, fun _ => rfl⟩
      simp [acceptedPayloads, hsel, hq, StepOut.quiet]
    · have hnone : acceptedPayloads [inp] [t.out] = [] := by
        simp only [acceptedPayloads, hsel, List.append_nil]
        exact if_neg fun ⟨hi, hack⟩ => by simp [henq (Selected.command.inj hi)] at hack
      have hother : selectInput inp ≠ .command .tick := by simpa [hsel] using htick
      rw [hnone, List.append_nil, if_neg hother]
      rw [ht] at hinv hcfg ⊢
      exact ⟨⟨henough, hinv, hcfg, hrole, hgate, hsense, hphase, hq⟩, hundecided, fun hi => absurd hi hother⟩

/-- The run through a window up to its last tick, by induction over its inputs. -/
theorem InWindow.run_goes_on {is : List PortInput} (h : InWindow s p q n u)
    (hundisturbing : ∀ inp ∈ is, (selectInput inp).undisturbing = true)
    (hmore : n + countCommand .tick is < s.cfg.senseTicks) :
    ∃ t os, runInputs is u = some (t, os) ∧
      InWindow s p (q ++ acceptedPayloads is os) (n + countCommand .tick is) t ∧ (∀ o ∈ os, o.undecided) ∧
      ((∀ inp ∈ is, selectInput inp = .command .tick) → ∀ o ∈ os, o = .quiet) := by
  induction is generalizing u q n with
  | nil => exact ⟨u, [], rfl, by simpa [acceptedPayloads] using h, by simp, by simp⟩
  | cons inp is ih =>
    have hsplit : n + countCommand .tick (inp :: is) = n + countCommand .tick [inp] + countCommand .tick is := by
      rw [countCommand_cons, countCommand_cons, countCommand_nil, Nat.add_zero, Nat.add_assoc]
    rw [hsplit] at hmore ⊢
    obtain ⟨hfirst, hrest⟩ := List.forall_mem_cons.1 hundisturbing
    have hpresented : (u.present inp).Inv := h.inv
    obtain ⟨v, hv⟩ := hpresented.step_completes
    obtain ⟨hwindow, hundecided, hquiet⟩ := h.goes_on hv hfirst (by omega)
    obtain ⟨t, os, hrun, hend, houts, hquiets⟩ := ih hwindow hrest hmore
    refine ⟨t, v.out :: os, by rw [runInputs_cons_next hv, hrun]; rfl, ?_, List.forall_mem_cons.2 ⟨hundecided, houts⟩,
      fun hticks => ?_⟩
    · rwa [acceptedPayloads_cons, ← List.append_assoc]
    · obtain ⟨htick, hticks⟩ := List.forall_mem_cons.1 hticks
      exact List.forall_mem_cons.2 ⟨hquiet htick, hquiets hticks⟩

/-- The last tick of a window sends: in role `Transmit` the channel is clear (10_state.md R40(g)). -/
theorem InWindow.last_tick (h : InWindow s p q n u) (hn : n + 1 = s.cfg.senseTicks) :
    ∃ t, step (u.present (cmdInput .tick)) = .next t ∧
      t.out = { ack := true, events := [.txSuccess], wireOut := encodeFrame p, msgOut := none } ∧ t.outQ = q ∧
      t.gate = .gIdle ∧ t.role = .transmit ∧ t.phaseCnt = s.phaseCnt + s.cfg.senseTicks := by
  obtain ⟨henough, ⟨_, _, _, _, _, ⟨_, _, hpayload, _⟩, hflag⟩, hcfg, hrole, hgate, hsense, hphase, hq⟩ := h
  have hfits : p.length ≤ u.cfg.maxPayload := hpayload p (by rw [hq]; exact List.mem_cons_self)
  have hexec := (Effect.windowSends (s := { u with msgIn := (cmdInput .tick).msgIn }) p q ⟨hrole, hgate⟩
    (by rw [hcfg, hphase]; omega) (by rw [hcfg, hsense]; exact hn) hq (hflag hrole) hfits).exec_next
  rw [← step_cmdInput] at hexec
  exact ⟨_, hexec, rfl, rfl, rfl, hrole, by rw [← hn, ← Nat.add_assoc, ← hphase]⟩

end

/-- Settles O49: `TRY_SEND` opens the window, the run through it keeps `InWindow`, and the last tick sends. -/
theorem clearSenseWindowSends : Obligations.ClearSenseWindowSends := by
  intro s p q is hinv hrole hgate hq hundisturbing hcount henough
  obtain ⟨u, hopen, hwindow, hfirst⟩ := exists_inWindow hinv hrole hgate hq henough
  obtain ⟨v, os, hrun, hend, houts, hquiets⟩ := hwindow.run_goes_on hundisturbing (by omega)
  obtain ⟨t, hsend, hsent, houtQ, hidle, htransmit, hphase⟩ := hend.last_tick (by omega)
  have hbefore : runInputs (cmdInput .trySend :: is) s = some (v, u.out :: os) := by
    rw [runInputs_cons_next hopen, hrun]; rfl
  have haccepted : acceptedPayloads ((cmdInput .trySend :: is) ++ [cmdInput .tick]) ((u.out :: os) ++ [t.out]) =
      acceptedPayloads is os := by
    rw [acceptedPayloads_append _ _ (runInputs_length hbefore), acceptedPayloads_cons,
      acceptedPayloads_of_ne (by simp [selectInput_cmdInput]), acceptedPayloads_of_ne (by simp [selectInput_cmdInput]),
      List.nil_append, List.append_nil]
  refine ⟨t, _, runInputs_concat hbefore hsend, ?_, ?_, ?_, ?_, hidle, htransmit, hphase⟩
  · rw [List.getLast?_concat, hsent]
  · rw [List.dropLast_concat]
    exact List.forall_mem_cons.2 ⟨hfirst ▸ StepOut.quiet_undecided, houts⟩
  · intro hticks
    rw [List.dropLast_concat]
    exact List.forall_mem_cons.2 ⟨hfirst, hquiets hticks⟩
  · rw [houtQ, haccepted]

end Sys2Proof.Machine

/-! SUPPORT. The statements of spec/43_scheduler.md: `TICK` in role `Idle` (R156), `MANUAL` (R157), the transition table
(R150), what a transition leaves (R162), how long a phase and the startup window last (R159, R156), and that opposite
nodes stay opposite (R164). The last three are runs of ticks: an induction over the number of ticks, packaged once. -/

namespace Sys2Proof.Machine

/-! ## The two active roles (43_scheduler.md R161) -/

@[simp] theorem roleOf_ne_idle (r : ActiveRole) : roleOf r ≠ .idle := by
  cases r <;> decide

theorem roleOf_injective : Function.Injective roleOf
  | .transmit, .transmit, _ => rfl
  | .receive, .receive, _ => rfl

theorem roleOf_otherRole (r : ActiveRole) :
    roleOf (otherRole r) = if roleOf r = .transmit then .receive else .transmit := by
  cases r <;> rfl

theorem roleOf_manualTarget (s : State) :
    roleOf (manualTarget s) =
      if s.role = .idle then roleOf s.cfg.manualStartRole else if s.role = .transmit then .receive else .transmit := by
  rcases Role.cases s.role with hr | hr | hr <;> simp [manualTarget, hr, roleOf]

/-! ## `TICK` in role `Idle` and `MANUAL` (43_scheduler.md R156, R157) -/

/-- Settles O13: the two effects of a startup tick; in role `Idle` the transition has no window to cancel. -/
theorem tickInIdleCountsTheStartupWindow : Obligations.TickInIdleCountsTheStartupWindow := by
  refine fun s hrole => ⟨fun hcnt => (Effect.startupCounts hrole hcnt).exec_next, fun hcnt => ?_⟩
  have hexec := (Effect.startupEnds hrole hcnt).exec_next
  rw [transition_of_closed (by simp [windowOpen, hrole])] at hexec
  exact hexec

theorem exec_manual_of_target {s : State} {r : ActiveRole} (h : manualTarget s = r) :
    exec .manual s = .next (transition r .manualOverride { s with out := .quiet }) := by
  rw [← h, Effect.toggle.exec_next]

/-- Settles O18: the transition of a manual trigger; only in role `Transmit` can it find a window to cancel. -/
theorem manualTogglesTheRole : Obligations.ManualTogglesTheRole := by
  refine ⟨by decide, fun s => ⟨fun hrole => ?_, fun hrole => ?_, fun hrole => ?_⟩⟩
  · rw [exec_manual_of_target (r := s.cfg.manualStartRole) (by simp [manualTarget, hrole]),
      transition_of_closed (by simp [windowOpen, hrole])]
    rfl
  · rw [exec_manual_of_target (r := .receive) (by simp [manualTarget, hrole]),
      transition_of_transmit (s := { s with out := .quiet }) hrole (by decide)]
    rfl
  · rw [exec_manual_of_target (r := .transmit) (by simp [manualTarget, hrole]),
      transition_of_closed (by simp [windowOpen, hrole])]
    rfl

/-! ## The transition table (43_scheduler.md R150) -/

section
variable {i : Instr} {s t : State}

/-- A tick in an active role ends the phase or counts it, whatever the sense window does (43_scheduler.md R155). -/
theorem Effect.tick_active {r : ActiveRole} (h : Effect s .tick t) (hrole : s.role = roleOf r) :
    (s.phaseCnt + 1 = s.cfg.phaseTicks ∧ t.role = roleOf (otherRole r) ∧ t.phaseCnt = 0 ∧ t.occ = false) ∨
    (s.phaseCnt + 1 ≠ s.cfg.phaseTicks ∧ t.role = roleOf r ∧ t.phaseCnt = s.phaseCnt + 1) := by
  cases h with
  | startupEnds hidle | startupCounts hidle => exact absurd (hrole ▸ hidle) (roleOf_ne_idle r)
  | phaseEnds r' hrole' hcnt =>
    obtain rfl := roleOf_injective (hrole.symm.trans hrole')
    exact .inl ⟨hcnt, transition_role _ _ _, transition_phaseCnt _ _ _, transition_occ _ _ _⟩
  | phaseCounts _ hcnt | windowCounts _ hcnt | windowCollides _ _ _ hcnt | windowSends _ _ _ hcnt =>
    exact .inr ⟨hcnt, hrole, rfl⟩

theorem Effect.role_of_tick_idle (h : Effect s .tick t) (hidle : s.role = .idle) :
    t.role = if s.startupCnt + 1 = s.cfg.startupTicks then roleOf s.cfg.defaultRole else .idle := by
  cases h with
  | startupEnds _ hcnt => rw [if_pos hcnt, transition_role]
  | startupCounts _ hcnt => rw [if_neg hcnt]; exact hidle
  | phaseEnds r hrole => exact absurd (hrole ▸ hidle) (roleOf_ne_idle r)
  | phaseCounts hactive => exact absurd hidle hactive
  | windowCounts hopen | windowCollides _ _ hopen | windowSends _ _ hopen => simp [hopen.1] at hidle

theorem Effect.role_of_tick_active (h : Effect s .tick t) (hactive : s.role ≠ .idle) :
    t.role =
      if s.phaseCnt + 1 = s.cfg.phaseTicks then (if s.role = .transmit then .receive else .transmit) else s.role := by
  obtain ⟨r, hrole⟩ := Role.exists_active hactive
  rcases h.tick_active hrole with ⟨hcnt, ht, _, _⟩ | ⟨hcnt, ht, _⟩
  · rw [if_pos hcnt, ht, roleOf_otherRole, hrole]
  · rw [if_neg hcnt, ht, hrole]

theorem Effect.role_of_rxByte {b : Byte} (h : Effect s (.rxByte b) t) :
    t.role = if s.role = .transmit then .receive else s.role := by
  cases h with
  | mark _ hrole => simp [hrole]
  | collide _ hrole => simp [hrole, roleOf]
  | feed _ hrole => simp [hrole]

/-- The commands that never touch the scheduler keep the role (10_state.md R37). -/
theorem Effect.role_eq (h : Effect s i t) (hi : i ∈ [.nop, .enqOut, .deqIn, .trySend]) : t.role = s.role := by
  by_contra hne
  rcases h.writes_role_counters (.inl hne) with rfl | rfl | ⟨⟨b, rfl⟩, _⟩ | rfl <;> simp at hi

/-- The one effect that can report a phase change is a transition from the state the command found, in which a byte has
at most marked the channel (43_scheduler.md R153). -/
theorem Effect.transition_of_made (h : Effect s i t) (hmade : madeTransition t) :
    ∃ r c occ, t = transition r c { s with occ := occ, out := .quiet } := by
  cases h with
  | collide | startupEnds | phaseEnds | toggle => exact ⟨_, _, _, rfl⟩
  | feed b hrole =>
    obtain ⟨r, c, u, ht⟩ := (Effect.feed b hrole).eq_transition_of_made hmade
    have hocc := congrArg State.occ ht
    simp at hocc
  | dequeue x => cases x <;> simp [madeTransition] at hmade
  | reset => simp [madeTransition, resetNode, State.resetOf, StepOut.quiet] at hmade
  | _ => simp [madeTransition, StepOut.quiet] at hmade

end

/-- Settles O37, row by row of the table. -/
theorem roleFollowsTheTransitionTable : Obligations.RoleFollowsTheTransitionTable := by
  intro i s t h
  have he := exec_effect h
  cases i with
  | rxByte b => exact he.role_of_rxByte
  | tick =>
    dsimp only
    split
    next hidle => exact he.role_of_tick_idle hidle
    next hactive => exact he.role_of_tick_active hactive
  | manual => cases he; rw [transition_role]; exact roleOf_manualTarget s
  | sreset => cases he; rfl
  | nop | enqOut | deqIn | trySend => exact he.role_eq (by simp)

/-- Settles O38: by the invariant only role `Transmit` has a window, and the transition cancels that. -/
theorem transitionLeavesTheReassemblerReset : Obligations.TransitionLeavesTheReassemblerReset := by
  intro i s t hinv h hmade
  obtain ⟨_, _, _, ⟨hwindow, _, _⟩, _, _, _⟩ := hinv
  obtain ⟨r, c, occ, rfl⟩ := (exec_effect h).transition_of_made hmade
  have hgate : (transition r c { s with occ := occ, out := .quiet }).gate = .gIdle :=
    transition_gate_idle (s := { s with occ := occ, out := .quiet }) (fun hg => (hwindow hg).1) r c
  exact ⟨transition_rsPos _ _ _, transition_rsPhase _ _ _, transition_occ _ _ _, hgate, transition_phaseCnt _ _ _⟩

/-! ## Runs of ticks -/

/-- One more tick at the end of a run of ticks. -/
theorem runInputs_ticks_succ {n : Nat} {s t u : State} {os : List StepOut}
    (h : runInputs (List.replicate n (cmdInput .tick)) s = some (t, os))
    (hstep : step (t.present (cmdInput .tick)) = .next u) :
    runInputs (List.replicate (n + 1) (cmdInput .tick)) s = some (u, os ++ [u.out]) := by
  rw [List.replicate_succ']
  exact runInputs_concat h hstep

/-- An induction over runs of ticks, packaged once: if every tick before the `limit`-th completes and takes `P n` to
`P (n + 1)` with an output that has `Q`, then the run of every smaller number of ticks completes, in `P` of that number
and with `Q` of all outputs. -/
theorem runInputs_ticks_induct {P : Nat → State → Prop} {Q : StepOut → Prop} {limit : Nat} {s : State} (hs : P 0 s)
    (hstep : ∀ {n u}, n + 1 < limit → P n u →
      ∃ t, step (u.present (cmdInput .tick)) = .next t ∧ P (n + 1) t ∧ Q t.out)
    {n : Nat} (hn : n < limit) :
    ∃ t os, runInputs (List.replicate n (cmdInput .tick)) s = some (t, os) ∧ P n t ∧ ∀ o ∈ os, Q o := by
  induction n with
  | zero => exact ⟨s, [], rfl, hs, by simp⟩
  | succ n ih =>
    obtain ⟨u, os, hrun, hPu, hQs⟩ := ih (Nat.lt_of_succ_lt hn)
    obtain ⟨t, ht, hPt, hQt⟩ := hstep hn hPu
    exact ⟨t, _, runInputs_ticks_succ hrun ht, hPt, List.forall_mem_append.2 ⟨hQs, by simpa using hQt⟩⟩

/-! ## The length of a phase (43_scheduler.md R155, R159) -/

/-- The node `u` runs the parameters `c` and is `n` ticks into a phase of role `r`. -/
structure InPhase (c : Config) (r : ActiveRole) (n : Nat) (u : State) : Prop where
  inv : u.Inv
  cfg : u.cfg = c
  role : u.role = roleOf r
  phase : u.phaseCnt = n

section
variable {c : Config} {r : ActiveRole} {n : Nat} {u : State}

/-- A tick completes, and ends the phase or counts it. -/
theorem InPhase.tick (h : InPhase c r n u) :
    ∃ t, step (u.present (cmdInput .tick)) = .next t ∧
      ((n + 1 = c.phaseTicks ∧ InPhase c (otherRole r) 0 t ∧ t.occ = false) ∨
       (n + 1 ≠ c.phaseTicks ∧ InPhase c r (n + 1) t)) := by
  obtain ⟨hinv, rfl, hrole, rfl⟩ := h
  have hpresented : (u.present (cmdInput .tick)).Inv := hinv
  obtain ⟨t, ht⟩ := hpresented.step_completes
  have hinv' := everyStepKeepsTheInvariant _ _ hpresented ht
  have hcfg := step_cfg ht
  have heffect := exec_effect ((step_cmdInput .tick u).symm.trans ht)
  refine ⟨t, ht, (heffect.tick_active hrole).imp ?_ ?_⟩
  · rintro ⟨hcnt, hrole', hphase, hocc⟩
    exact ⟨hcnt, ⟨hinv', hcfg, hrole', hphase⟩, hocc⟩
  · rintro ⟨hcnt, hrole', hphase⟩
    exact ⟨hcnt, hinv', hcfg, hrole', hphase⟩

theorem InPhase.tick_counts (h : InPhase c r n u) (hn : n + 1 ≠ c.phaseTicks) :
    ∃ t, step (u.present (cmdInput .tick)) = .next t ∧ InPhase c r (n + 1) t := by
  obtain ⟨t, ht, ⟨hcnt, _⟩ | ⟨_, hnext⟩⟩ := h.tick
  · exact absurd hcnt hn
  · exact ⟨t, ht, hnext⟩

theorem InPhase.tick_ends (h : InPhase c r n u) (hn : n + 1 = c.phaseTicks) :
    ∃ t, step (u.present (cmdInput .tick)) = .next t ∧ InPhase c (otherRole r) 0 t ∧ t.occ = false := by
  obtain ⟨t, ht, ⟨_, hnext⟩ | ⟨hcnt, _⟩⟩ := h.tick
  · exact ⟨t, ht, hnext⟩
  · exact absurd hn hcnt

/-- From the start of a phase, fewer than `PHASE_TICKS` ticks stay in it. -/
theorem InPhase.run (h : InPhase c r 0 u) (hn : n < c.phaseTicks) :
    ∃ t os, runInputs (List.replicate n (cmdInput .tick)) u = some (t, os) ∧ InPhase c r n t := by
  obtain ⟨t, os, hrun, ht, _⟩ := runInputs_ticks_induct (P := InPhase c r) (Q := fun _ => True) h
    (fun hlt hu =>
      let ⟨t, ht, hnext⟩ := hu.tick_counts (Nat.ne_of_lt hlt)
      ⟨t, ht, hnext, trivial⟩) hn
  exact ⟨t, os, hrun, ht⟩

end

/-- Settles O50: the run within the phase, and the one tick more that ends it. -/
theorem phaseLastsExactlyPhaseTicks : Obligations.PhaseLastsExactlyPhaseTicks := by
  intro s r hinv hrole hphase
  have hstart : InPhase s.cfg r 0 s := ⟨hinv, rfl, hrole, hphase⟩
  refine ⟨fun n hn => ?_, ?_⟩
  · obtain ⟨t, os, hrun, ht⟩ := hstart.run hn
    exact ⟨t, os, hrun, ht.role, ht.phase⟩
  · obtain ⟨_, _, _, hpos, _⟩ := Config.legal_pos hinv.1
    obtain ⟨n, hn⟩ := Nat.exists_eq_add_of_le' hpos
    obtain ⟨u, os, hrun, hu⟩ := hstart.run (n := n) (by omega)
    obtain ⟨t, ht, hnext, hocc⟩ := hu.tick_ends hn.symm
    rw [hn]
    exact ⟨t, _, runInputs_ticks_succ hrun ht, hnext.role, hnext.phase, hocc⟩

/-! ## The startup window (43_scheduler.md R156, 70_reset_and_hazards.md R233) -/

/-- The node with the parameters `c` that has had `n` ticks since its reset and nothing else. -/
def startupState (c : Config) (n : Nat) : State := { State.resetOf c with startupCnt := n }

theorem step_startupState_counts {c : Config} {n : Nat} (hn : n + 1 ≠ c.startupTicks) :
    step ((startupState c n).present (cmdInput .tick)) = .next (startupState c (n + 1)) := by
  rw [step_cmdInput]
  exact (Effect.startupCounts rfl hn).exec_next

theorem step_startupState_ends {c : Config} {n : Nat} (hn : n + 1 = c.startupTicks) :
    step ((startupState c n).present (cmdInput .tick)) =
      .next (transition c.defaultRole .startup (startupState c n)) := by
  rw [step_cmdInput]
  exact (Effect.startupEnds rfl hn).exec_next

/-- From reset, fewer than `STARTUP_TICKS` ticks count the startup window, with no event. -/
theorem runInputs_startup {c : Config} {n : Nat} (hn : n < c.startupTicks) :
    ∃ os, runInputs (List.replicate n (cmdInput .tick)) (State.resetOf c) = some (startupState c n, os) ∧
      ∀ o ∈ os, o.events = [] := by
  obtain ⟨_, os, hrun, rfl, hsilent⟩ := runInputs_ticks_induct (P := fun n u => u = startupState c n)
    (Q := fun o => o.events = []) (s := State.resetOf c) rfl
    (fun hlt hu => ⟨_, hu ▸ step_startupState_counts (Nat.ne_of_lt hlt), rfl, rfl⟩) hn
  exact ⟨os, hrun, hsilent⟩

/-- Settles O51: the run within the startup window, and the one tick more that ends it. -/
theorem startupFallbackEntersTheDefaultRole : Obligations.StartupFallbackEntersTheDefaultRole := by
  intro c hc
  refine ⟨fun n hn => ?_, ?_⟩
  · obtain ⟨os, hrun, hsilent⟩ := runInputs_startup hn
    exact ⟨_, os, hrun, rfl, hsilent⟩
  · obtain ⟨_, _, _, _, hpos⟩ := Config.legal_pos hc
    obtain ⟨n, hn⟩ := Nat.exists_eq_add_of_le' hpos
    obtain ⟨os, hrun, _⟩ := runInputs_startup (c := c) (n := n) (by omega)
    have hlast := runInputs_ticks_succ hrun (step_startupState_ends hn.symm)
    rw [hn]
    refine ⟨_, _, hlast, transition_role _ _ _, transition_startupCnt _ _ _, ?_⟩
    rw [List.getLast?_concat, transition_out, transitionEvents_of_ne (by decide)]
    rfl

/-! ## Two nodes with opposite roles (43_scheduler.md R164) -/

/-- A tick of both of two nodes in opposite phases of equal length and equal age counts in both or ends both. -/
theorem InPhase.tick_opposite {c d : Config} {r : ActiveRole} {k : Nat} {a b : State}
    (hphase : c.phaseTicks = d.phaseTicks) (ha : InPhase c r k a) (hb : InPhase d (otherRole r) k b) :
    ∃ a' b' r' k', step (a.present (cmdInput .tick)) = .next a' ∧ step (b.present (cmdInput .tick)) = .next b' ∧
      InPhase c r' k' a' ∧ InPhase d (otherRole r') k' b' := by
  by_cases hk : k + 1 = c.phaseTicks
  · obtain ⟨a', hstepa, ha', _⟩ := ha.tick_ends hk
    obtain ⟨b', hstepb, hb', _⟩ := hb.tick_ends (hphase ▸ hk)
    exact ⟨a', b', _, _, hstepa, hstepb, ha', hb'⟩
  · obtain ⟨a', hstepa, ha'⟩ := ha.tick_counts hk
    obtain ⟨b', hstepb, hb'⟩ := hb.tick_counts (hphase ▸ hk)
    exact ⟨a', b', _, _, hstepa, hstepb, ha', hb'⟩

/-- Such nodes are so again after any number of ticks. -/
theorem InPhase.runs_opposite {c d : Config} (hphase : c.phaseTicks = d.phaseTicks) (n : Nat) :
    ∀ {r : ActiveRole} {k : Nat} {a b : State}, InPhase c r k a → InPhase d (otherRole r) k b →
      ∃ a' b' oa ob r' k', runInputs (List.replicate n (cmdInput .tick)) a = some (a', oa) ∧
        runInputs (List.replicate n (cmdInput .tick)) b = some (b', ob) ∧
        InPhase c r' k' a' ∧ InPhase d (otherRole r') k' b' := by
  induction n with
  | zero => exact fun ha hb => ⟨_, _, _, _, _, _, rfl, rfl, ha, hb⟩
  | succ n ih =>
    intro r k a b ha hb
    obtain ⟨a₁, b₁, _, _, hstepa, hstepb, ha₁, hb₁⟩ := ha.tick_opposite hphase hb
    obtain ⟨a', b', oa, ob, r', k', hruna, hrunb, ha', hb'⟩ := ih ha₁ hb₁
    rw [List.replicate_succ, runInputs_cons_next hstepa, runInputs_cons_next hstepb, hruna, hrunb]
    exact ⟨a', b', _, _, r', k', rfl, rfl, ha', hb'⟩

/-- Settles O59: two nodes in opposite phases, run in step. -/
theorem oppositeNodesStayOpposite : Obligations.OppositeNodesStayOpposite := by
  intro a b r n hinva hinvb hphase hcnt hrolea hroleb
  have ha : InPhase a.cfg r a.phaseCnt a := ⟨hinva, rfl, hrolea, rfl⟩
  have hb : InPhase b.cfg (otherRole r) a.phaseCnt b := ⟨hinvb, rfl, hroleb, hcnt.symm⟩
  obtain ⟨a', b', oa, ob, r', k, hruna, hrunb, ha', hb'⟩ := InPhase.runs_opposite hphase n ha hb
  exact ⟨a', b', oa, ob, r', hruna, hrunb, ha'.role, hb'.role, ha'.phase.trans hb'.phase.symm⟩

end Sys2Proof.Machine

/-! SUPPORT. The statements of spec/44_queues.md: `ENQ_OUT` (R174), `DEQ_IN` (R175), and that both queues are first in
first out (R176): the inbound queue step by step, the outbound queue over runs, by an induction over the inputs. -/

namespace Sys2Proof.Machine

/-! ## The two commands of the application (44_queues.md R174, R175) -/

/-- Settles O27: the three effects of `ENQ_OUT`. -/
theorem enqOutAppendsOrRefuses : Obligations.EnqOutAppendsOrRefuses :=
  ⟨by decide, fun _ =>
    ⟨fun hsize => (Effect.enqOversize hsize).exec_next,
     fun hsize hfull => (Effect.enqFull (Nat.not_lt.2 hsize) hfull).exec_next,
     fun hsize hroom => (Effect.enqueue (Nat.not_lt.2 hsize) hroom).exec_next⟩⟩

/-- Settles O28: the two effects of `DEQ_IN`. -/
theorem deqInHandsOverTheOldestItem : Obligations.DeqInHandsOverTheOldestItem :=
  ⟨by decide, fun _ =>
    ⟨fun x q hrole hq => (Effect.dequeue x q hrole hq).exec_next, fun hno => (Effect.deqRefused hno).exec_next⟩⟩

/-! ## The inbound queue (44_queues.md R176) -/

/-- Settles O42, effect by effect: `DEQ_IN` takes the head, only the hand-off of a received frame pushes, at the tail,
and nothing else touches `in_q`. -/
theorem inboundQueueIsFirstInFirstOut : Obligations.InboundQueueIsFirstInFirstOut := by
  intro i s t hi h
  cases exec_effect h with
  | dequeue x q _ hq => exact .inr ⟨x, rfl, hq⟩
  | feed b hrole =>
    refine .inl ⟨execRxByte_msgOut h, ?_⟩
    rcases handOff_inQ (feedByte b { s with occ := true, out := .quiet }) with hkept | ⟨x, _, hpushed, _⟩
    · exact ⟨[], Nat.zero_le 1, by rw [hkept, feedByte_inQ, List.append_nil]⟩
    · exact ⟨[x], Nat.le_refl 1, by rw [hpushed, feedByte_inQ]⟩
  | collide | startupEnds | phaseEnds | toggle =>
    exact .inl ⟨by rw [transition_out]; rfl, [], Nat.zero_le 1, by rw [transition_inQ, List.append_nil]⟩
  | reset => exact absurd rfl hi
  | _ => exact .inl ⟨rfl, [], Nat.zero_le 1, (List.append_nil _).symm⟩

/-! ## The outbound queue (44_queues.md R176) -/

/-- A command appends the payload it accepts to `out_q`, or at most takes messages out of it. -/
theorem Effect.outQ_cases {i : Instr} {s t : State} (h : Effect s i t) :
    (i = .enqOut ∧ t.out.ack = true ∧ t.outQ = s.outQ ++ [s.msgIn.offered]) ∨ t.outQ.Sublist s.outQ := by
  cases h with
  | enqueue => exact .inl ⟨rfl, rfl, rfl⟩
  | collide | startupEnds | phaseEnds | toggle => exact .inr (transition_outQ_sublist _ _ _)
  | windowCollides p q _ _ _ hq | windowSends p q _ _ _ hq => exact .inr (hq ▸ List.sublist_cons_self p q)
  | reset => exact .inr (List.nil_sublist _)
  | feed b hrole => exact .inr (by rw [handOff_outQ, feedByte_outQ])
  | _ => exact .inr (List.Sublist.refl _)

/-- A step takes nothing into `out_q` but the payload it accepts, and that at the tail. -/
theorem stepInput_outQ_sublist {inp : PortInput} {s t : State} (h : stepInput inp s = .next t) :
    t.outQ.Sublist (s.outQ ++ acceptedPayloads [inp] [t.out]) := by
  rcases stepInput_next h with ⟨_, rfl⟩ | ⟨_, _, rfl⟩ | ⟨i, hsel, he⟩
  · exact List.nil_sublist _
  · exact List.sublist_append_left _ _
  · rcases he.outQ_cases with ⟨rfl, hack, hq⟩ | hsub
    · simp [hq, acceptedPayloads, hsel, hack]
    · exact hsub.trans (List.sublist_append_left _ _)

theorem framesOf_cons (o : StepOut) (os : List StepOut) : framesOf (o :: os) = framesOf [o] ++ framesOf os := by
  rw [framesOf, framesOf, framesOf, ← List.filter_append]
  rfl

theorem framesOf_of_silent {o : StepOut} (h : o.wireOut = []) : framesOf [o] = [] := by
  simp [framesOf, h]

theorem framesOf_of_frame {o : StepOut} {p : Payload} (h : o.wireOut = encodeFrame p) :
    framesOf [o] = [encodeFrame p] := by
  simp [framesOf, h, encodeFrame_eq]

/-- The statement of O52 for one step: a frame on the wire is that of the head of `out_q`, which leaves the queue. -/
theorem stepInput_frames_sublist {inp : PortInput} {s t : State} (h : stepInput inp s = .next t) :
    (framesOf [t.out] ++ t.outQ.map encodeFrame).Sublist
      ((s.outQ ++ acceptedPayloads [inp] [t.out]).map encodeFrame) := by
  by_cases hwire : t.out.wireOut = []
  · rw [framesOf_of_silent hwire]
    exact (stepInput_outQ_sublist h).map encodeFrame
  · obtain ⟨_, _, _, _, _, _, _, p, q, hq, hframe, rfl⟩ := wireCarriesOnlyWholeFrames inp s t h hwire
    obtain ⟨_, hsent⟩ := frameOf_eq_some_iff.1 hframe
    rw [framesOf_of_frame hsent.symm, hq, List.map_append]
    exact List.sublist_append_left _ _

/-- A run that answers is its first step and the run on the other inputs. -/
theorem runInputs_cons_eq_some {inp : PortInput} {is : List PortInput} {s t : State} {os : List StepOut}
    (h : runInputs (inp :: is) s = some (t, os)) :
    ∃ u ps, stepInput inp s = .next u ∧ runInputs is u = some (t, ps) ∧ os = u.out :: ps := by
  cases hu : step (s.present inp) with
  | next u =>
    rw [runInputs_cons_next hu] at h
    obtain ⟨⟨v, ps⟩, hrun, heq⟩ := Option.map_eq_some_iff.1 h
    cases heq
    exact ⟨u, ps, hu, hrun, rfl⟩
  | fault _ => simp [runInputs, hu] at h
  | refused _ => simp [runInputs, hu] at h

/-- Settles O52, by induction over the inputs: the frame of the first step stands before those of the rest of the run,
and the messages that step leaves in `out_q` before those accepted later. -/
theorem framesLeaveInTheOrderAccepted : Obligations.FramesLeaveInTheOrderAccepted := by
  intro is
  induction is with
  | nil =>
    intro s t os h
    cases h
    simp [framesOf, acceptedPayloads]
  | cons inp is ih =>
    intro s t os h
    obtain ⟨u, ps, hstep, hrun, rfl⟩ := runInputs_cons_eq_some h
    have hrest := (ih u t ps hrun).append_left (framesOf [u.out])
    have hfirst := (stepInput_frames_sublist hstep).append_right ((acceptedPayloads is ps).map encodeFrame)
    rw [← List.append_assoc, List.map_append, ← List.append_assoc] at hrest
    rw [framesOf_cons, acceptedPayloads_cons, ← List.append_assoc s.outQ, List.map_append]
    exact hrest.trans hfirst

end Sys2Proof.Machine

/-! SUPPORT. The statements of spec/45_control.md: `NOP` (R185), an illegal word (R186), and `SRESET` (R187). -/

namespace Sys2Proof.Machine

/-- An input without reset whose word does not decode selects the report of an illegal word, whatever the reason
(45_control.md R188). -/
theorem selectInput_eq_illegal {inp : PortInput} {e : IllegalWord} (hr : inp.rst = false)
    (hd : decode inp.cmd = .error e) : selectInput inp = .illegal e := by
  simp [selectInput, hr, hd]

/-- The report of an illegal word writes the outputs and nothing else (45_control.md R186). -/
theorem illegalCommand_eq (s : State) :
    illegalCommand s = { s with out := { StepOut.quiet with ack := false, events := [.illegalCommand] } } := rfl

/-- Settles O8: a reserved opcode and a non-zero `zero` field are what the decoder refuses (O3), and the step reports a
refused word without reading the state. -/
theorem illegalWordChangesNothing : Obligations.IllegalWordChangesNothing := by
  intro s inp rest hp hr hillegal
  obtain ⟨e, he⟩ := (illegalWordsAreTheReservedOnes inp.cmd).2 hillegal
  rw [step_cons hp, selectInput_eq_illegal hr he]
  exact congrArg Host.Outcome.next (illegalCommand_eq _)

/-- Settles O11. -/
theorem nopChangesNothing : Obligations.NopChangesNothing :=
  ⟨by decide, fun _ => Effect.nop.exec_next⟩

/-- Settles O12: `SRESET` answers `resetNode`, whose elements are those of the state right after reset (O10). -/
theorem sresetResetsEverything : Obligations.SresetResetsEverything := by
  refine ⟨by decide, fun s => ⟨resetNode s, Effect.reset.exec_next, ?_⟩⟩
  obtain ⟨hphase, hlen, hcks, hpos, hocc, hrole, hphaseCnt, hstartupCnt, hgate, hsenseCnt, houtQ, hinQ⟩ :=
    resetValues s.cfg
  exact ⟨hphase, hlen, hcks, hpos, hocc, hrole, hphaseCnt, hstartupCnt, hgate, hsenseCnt, houtQ, hinQ,
    rfl, rfl, rfl, rfl⟩

end Sys2Proof.Machine

/-! SUPPORT. The statements of spec/60_exceptions.md: what a step of two nodes on one wire is (R219, R220), what
becomes of two sense windows that overlap (R222, R223(b)), and that a message crosses the wire (R223(a)). The message
goes by one induction over the steps of the pair, with `ReceivingFrame` as the invariant of the receiver. -/

namespace Sys2Proof.Machine

/-! ## The steps of a pair (60_exceptions.md R219, R220) -/

theorem mapNext_eq_next_iff {f : State → Pair} {o : Host.Outcome State Fault Refusal} {q : Pair} :
    mapNext f o = .next q ↔ ∃ t, o = .next t ∧ q = f t := by
  cases o <;> simp [mapNext, eq_comm]

section
variable {p q : Pair} {x : Byte} {rest : List Byte} {inp : PortInput}

theorem pairStep_nodeA_iff :
    pairStep (.node .a inp) p = .next q ↔
      ∃ t, stepInput inp p.a = .next t ∧ q = { a := t, b := p.b, toA := p.toA, toB := p.toB ++ t.out.wireOut } :=
  mapNext_eq_next_iff

theorem pairStep_nodeB_iff :
    pairStep (.node .b inp) p = .next q ↔
      ∃ t, stepInput inp p.b = .next t ∧ q = { a := p.a, b := t, toA := p.toA ++ t.out.wireOut, toB := p.toB } :=
  mapNext_eq_next_iff

/-- A delivery is a noise byte of that value once the byte is off the wire. -/
theorem pairStep_deliverA_iff (h : p.toA = x :: rest) :
    pairStep (.deliver .a) p = .next q ↔
      ∃ t, stepInput (rxInput x) p.a = .next t ∧
        q = { a := t, b := p.b, toA := rest, toB := p.toB ++ t.out.wireOut } := by
  rw [pairStep_deliverA_eq h, pairStep_nodeA_iff]

theorem pairStep_deliverB_iff (h : p.toB = x :: rest) :
    pairStep (.deliver .b) p = .next q ↔
      ∃ t, stepInput (rxInput x) p.b = .next t ∧
        q = { a := p.a, b := t, toA := p.toA ++ t.out.wireOut, toB := rest } := by
  rw [pairStep_deliverB_eq h, pairStep_nodeB_iff]

end

/-- Settles O55: the four kinds of step, read from left to right. -/
theorem wireDeliversInOrderWithoutEcho : Obligations.WireDeliversInOrderWithoutEcho :=
  ⟨fun _ _ _ _ h => (pairStep_deliverB_iff h).1, fun _ _ _ _ h => (pairStep_deliverA_iff h).1,
    fun _ _ _ => pairStep_nodeA_iff.1, fun _ _ _ => pairStep_nodeB_iff.1⟩

theorem pairRun_cons_next {c : PairCmd} {p q : Pair} (h : pairStep c p = .next q) (cs : List PairCmd) :
    pairRun (c :: cs) p = pairRun cs q := by
  simp only [pairRun, h]

/-- A run of two steps, both of which complete. -/
theorem pairRun_two {c d : PairCmd} {p q r : Pair} (hc : pairStep c p = .next q) (hd : pairStep d q = .next r) :
    pairRun [c, d] p = .next r := by
  rw [pairRun_cons_next hc, pairRun_cons_next hd]
  rfl

/-! ## The steps of one node that end an encounter -/

theorem stepInput_rxInput (b : Byte) (s : State) :
    stepInput (rxInput b) s = exec (.rxByte b) { s with msgIn := (rxInput b).msgIn } :=
  step_cmdInput (.rxByte b) s

section
variable {s : State} {x : Payload} {q : List Payload}

/-- A node in an open window is as far into it as if it had opened it `sense_cnt` ticks ago (10_state.md R40(b)). -/
theorem State.Inv.inWindow (hinv : s.Inv) (hgate : s.gate = .gSense) (hq : s.outQ = x :: q)
    (hsense : s.senseCnt + 1 = s.cfg.senseTicks) (hphase : s.phaseCnt + 1 ≠ s.cfg.phaseTicks) :
    InWindow { s with phaseCnt := s.phaseCnt - s.senseCnt } x q s.senseCnt s := by
  have ⟨_, _, _, ⟨hopen, _⟩, ⟨hlt, _⟩, _⟩ := hinv
  obtain ⟨hrole, _, hage⟩ := hopen hgate
  refine ⟨?_, hinv, rfl, hrole, hgate, rfl, (Nat.sub_add_cancel hage).symm, hq⟩
  dsimp only
  omega

/-- The last tick of an open window sends its message (42_occupancy_gate.md R138). -/
theorem State.Inv.sends (hinv : s.Inv) (hgate : s.gate = .gSense) (hq : s.outQ = x :: q)
    (hsense : s.senseCnt + 1 = s.cfg.senseTicks) (hphase : s.phaseCnt + 1 ≠ s.cfg.phaseTicks) :
    ∃ t, stepInput (cmdInput .tick) s = .next t ∧
      t.out = { ack := true, events := [.txSuccess], wireOut := encodeFrame x, msgOut := none } ∧ t.outQ = q ∧
      t.gate = .gIdle ∧ t.role = .transmit := by
  obtain ⟨t, hstep, hout, houtQ, hidle, hrole, _⟩ := (hinv.inWindow hgate hq hsense hphase).last_tick hsense
  exact ⟨t, hstep, hout, houtQ, hidle, hrole⟩

/-- The output of a step that finds a collision (41_reassembler.md R122, 43_scheduler.md R153). -/
abbrev StepOut.collided : StepOut := { ack := true, events := [.collision, .phaseRx], wireOut := [], msgOut := none }

/-- A byte inside a sense window is a collision, and the message of the window is lost (42_occupancy_gate.md R139). -/
theorem stepInput_rxInput_of_open (hrole : s.role = .transmit) (hgate : s.gate = .gSense) (hq : s.outQ = x :: q)
    (b : Byte) :
    ∃ t, stepInput (rxInput b) s = .next t ∧ t.out = .collided ∧ t.outQ = q ∧ t.role = .receive ∧ t.gate = .gIdle := by
  rw [stepInput_rxInput, (rxByteInTransmitCollides b { s with msgIn := (rxInput b).msgIn } hrole).2 x q hgate hq]
  exact ⟨_, rfl, rfl, rfl, rfl, rfl⟩

/-- A byte after the window of a node is a collision too, as long as the node is in role `Transmit`. -/
theorem stepInput_rxInput_of_closed (hrole : s.role = .transmit) (hgate : s.gate = .gIdle) (b : Byte) :
    ∃ t, stepInput (rxInput b) s = .next t ∧ t.out = .collided ∧ t.role = .receive ∧ t.phaseCnt = 0 := by
  rw [stepInput_rxInput, (rxByteInTransmitCollides b { s with msgIn := (rxInput b).msgIn } hrole).1 hgate]
  exact ⟨_, rfl, rfl, rfl, rfl⟩

end

/-- The bytes of a frame are its first byte and the others. -/
theorem encodeFrame_eq_cons_tail (x : Payload) :
    encodeFrame x = hiByte (BitVec.ofNat 16 x.length) :: (encodeFrame x).tail := rfl

/-! ## Two windows that overlap (60_exceptions.md R222, R223) -/

/-- Settles O57: A sends, and the first byte of its frame is a collision in B's window. -/
theorem firstWindowWinsTheOtherCollides : Obligations.FirstWindowWinsTheOtherCollides := by
  intro p x y qa qb hinvA _ _ hgateA hsenseA hphaseA hqA htoB hroleB hgateB hqB
  obtain ⟨a, hsend, houtA, houtQA, _⟩ := hinvA.sends hgateA hqA hsenseA hphaseA
  obtain ⟨b, hcollide, houtB, houtQB, hreceive, hidle⟩ :=
    stepInput_rxInput_of_open hroleB hgateB hqB (hiByte (BitVec.ofNat 16 x.length))
  have hway : p.toB ++ a.out.wireOut = encodeFrame x := by rw [htoB, houtA]; rfl
  have hrun := pairRun_two (pairStep_nodeA_iff.2 ⟨a, hsend, rfl⟩)
    ((pairStep_deliverB_iff (hway.trans (encodeFrame_eq_cons_tail x))).2 ⟨b, hcollide, rfl⟩)
  refine ⟨_, hrun, ?_⟩
  simp [houtA, houtB, houtQA, houtQB, hreceive, hidle]

/-- Settles O58: both send, and the first byte of each frame is a collision at a node that is still in role
`Transmit`. -/
theorem bothWindowsEndingBothSendThenCollide : Obligations.BothWindowsEndingBothSendThenCollide := by
  intro p x y qa qb hinvA hinvB _ hgateA hsenseA hphaseA hqA htoB _ hgateB hsenseB hphaseB hqB htoA
  obtain ⟨a, hsendA, houtA, _, hidleA, hroleA⟩ := hinvA.sends hgateA hqA hsenseA hphaseA
  obtain ⟨b, hsendB, houtB, _, hidleB, hroleB⟩ := hinvB.sends hgateB hqB hsenseB hphaseB
  have hwayB : p.toB ++ a.out.wireOut = encodeFrame x := by rw [htoB, houtA]; rfl
  have hwayA : p.toA ++ b.out.wireOut = encodeFrame y := by rw [htoA, houtB]; rfl
  obtain ⟨b', hcollideB, houtB', hreceiveB, hphaseB'⟩ :=
    stepInput_rxInput_of_closed hroleB hidleB (hiByte (BitVec.ofNat 16 x.length))
  obtain ⟨a', hcollideA, houtA', hreceiveA, hphaseA'⟩ :=
    stepInput_rxInput_of_closed hroleA hidleA (hiByte (BitVec.ofNat 16 y.length))
  have hback : encodeFrame y ++ b'.out.wireOut = hiByte (BitVec.ofNat 16 y.length) :: (encodeFrame y).tail := by
    rw [houtB', List.append_nil]; rfl
  have hsends := pairRun_two (pairStep_nodeA_iff.2 ⟨a, hsendA, rfl⟩) (pairStep_nodeB_iff.2 ⟨b, hsendB, rfl⟩)
  rw [hwayA, hwayB] at hsends
  have hdelivered := (pairStep_deliverB_iff (p := { a := a, b := b, toA := encodeFrame y, toB := encodeFrame x })
    (encodeFrame_eq_cons_tail x)).2 ⟨b', hcollideB, rfl⟩
  have hcollisions := pairRun_two hdelivered ((pairStep_deliverA_iff hback).2 ⟨a', hcollideA, rfl⟩)
  refine ⟨_, _, hsends, by rw [houtA], by rw [houtB], rfl, rfl, hcollisions, ?_⟩
  simp [houtA', houtB', hreceiveA, hreceiveB, hphaseA', hphaseB']

/-! ## A message that crosses the wire (60_exceptions.md R223(a)) -/

/-! ### What the reassembler reads -/

/-- The node with all but what `feed_byte` reads at its reset value (41_reassembler.md R110). -/
def State.reassembler (s : State) : State :=
  { State.resetOf s.cfg with
    rsPhase := s.rsPhase, rsLen := s.rsLen, rsCks := s.rsCks, rsBuf := s.rsBuf, rsPos := s.rsPos
    bufEpoch := s.bufEpoch }

theorem storePayloadByte_reassembler (b : Byte) (s : State) :
    storePayloadByte b s.reassembler = (storePayloadByte b s).reassembler := by
  rw [storePayloadByte_eq, storePayloadByte_eq]
  rfl

/-- `feed_byte` neither reads nor writes anything else. -/
theorem feedByte_reassembler (b : Byte) (s : State) :
    feedByte b s.reassembler = ((feedByte b s).1, (feedByte b s).2.reassembler) := by
  cases hphase : s.rsPhase with
  | awaitLengthHigh =>
    rw [feedByte_awaitLengthHigh b hphase, feedByte_awaitLengthHigh (s := s.reassembler) b hphase]
    rfl
  | awaitLengthLow =>
    rw [feedByte_awaitLengthLow b hphase, feedByte_awaitLengthLow (s := s.reassembler) b hphase]
    rfl
  | awaitChecksum =>
    by_cases hlen : s.rsLen = 0#16
    · rw [feedByte_awaitChecksum_zero b hphase hlen, feedByte_awaitChecksum_zero (s := s.reassembler) b hphase hlen]
      rfl
    · rw [feedByte_awaitChecksum_pos b hphase hlen, feedByte_awaitChecksum_pos (s := s.reassembler) b hphase hlen]
      rfl
  | awaitPayload =>
    by_cases hlast : s.rsPos + 1#16 = s.rsLen
    · rw [feedByte_awaitPayload_last b hphase hlast, feedByte_awaitPayload_last (s := s.reassembler) b hphase hlast,
        storePayloadByte_reassembler]
      rfl
    · rw [feedByte_awaitPayload_more b hphase hlast, feedByte_awaitPayload_more (s := s.reassembler) b hphase hlast,
        storePayloadByte_reassembler]
      rfl

theorem feedBlock_reassembler (bs : List Byte) (s : State) :
    (feedBlock bs s.reassembler).1 = (feedBlock bs s).1 := by
  induction bs generalizing s with
  | nil => rfl
  | cons b bs ih => rw [feedBlock_cons, feedBlock_cons, feedByte_reassembler, ih]

theorem feedBlock_congr {s t : State} (h : t.reassembler = s.reassembler) (bs : List Byte) :
    (feedBlock bs t).1 = (feedBlock bs s).1 := by
  rw [← feedBlock_reassembler, h, feedBlock_reassembler]

theorem reportable_eq_nil_iff {r : FeedResult} : reportable r = [] ↔ r = .incomplete := by
  cases r <;> simp [reportable]

theorem reportable_eq_singleton_frameReady_iff {r : FeedResult} {x : Payload} :
    reportable r = [.frameReady x] ↔ r = .frameReady x := by
  cases r <;> simp [reportable]

/-! ### The receiver between two bytes of a frame -/

/-- The receiver `u` has the bytes `bs` of a frame still to come: the last of them will complete the message `x`, and
nothing before it completes anything. -/
structure ReceivingFrame (x : Payload) (bs : List Byte) (u : State) : Prop where
  inv : u.Inv
  role : u.role = .receive
  last : (feedBlock bs u).1 = [.frameReady x]
  before : (feedBlock bs.dropLast u).1 = []

/-- At the start of a frame the whole frame is still to come (41_reassembler.md R124). -/
theorem receivingFrame_encodeFrame {x : Payload} {u : State} (hinv : u.Inv) (hrole : u.role = .receive)
    (hstart : u.rsPhase = .awaitLengthHigh) (hfits : x.length ≤ u.cfg.maxPayload) :
    ReceivingFrame x (encodeFrame x) u := by
  obtain ⟨hlast, hbefore, _⟩ := feedBlock_encodeFrame hinv.1 hfits hstart
  exact ⟨hinv, hrole, hlast, hbefore⟩

/-- What a command that brings no byte and makes no transition can do in role `Receive`: a tick counts the phase, a
`DEQ_IN` takes the oldest item, and an `ENQ_OUT` may append to `out_q`. -/
theorem Effect.receive_frame {i : Instr} {s t : State} (h : Effect s i t) (hrole : s.role = .receive)
    (hundisturbing : (Selected.command i).undisturbing = true)
    (hgoes_on : i = .tick → s.phaseCnt + 1 ≠ s.cfg.phaseTicks) :
    t = { s with
      phaseCnt := s.phaseCnt + (if i = .tick then 1 else 0), inQ := s.inQ.drop (if i = .deqIn then 1 else 0)
      outQ := t.outQ, out := t.out } := by
  cases h with
  | nop | phaseCounts | enqOversize | enqFull | enqueue | trySendRefused => rfl
  | deqRefused hno => simp [hno.resolve_left (not_not.2 hrole)]
  | dequeue x q _ hq => simp [hq]
  | mark | collide | feed | toggle | reset => cases hundisturbing
  | startupEnds hidle | startupCounts hidle => rw [hrole] at hidle; cases hidle
  | phaseEnds _ _ hcnt => exact absurd hcnt (hgoes_on rfl)
  | windowCounts hopen | windowCollides _ _ hopen | windowSends _ _ hopen =>
    have ⟨htransmit, _⟩ := hopen
    rw [hrole] at htransmit; cases htransmit
  | openWindow henabled => rw [hrole] at henabled; cases henabled.1

/-- The same of a presented input, an illegal word included; and only a sense window puts bytes on the wire. -/
theorem stepInput_receive_frame {inp : PortInput} {s t : State} (h : stepInput inp s = .next t)
    (hrole : s.role = .receive) (hundisturbing : (selectInput inp).undisturbing = true)
    (hgoes_on : s.phaseCnt + countCommand .tick [inp] < s.cfg.phaseTicks) :
    t.out.wireOut = [] ∧
    t = { s with
      phaseCnt := s.phaseCnt + countCommand .tick [inp], inQ := s.inQ.drop (countCommand .deqIn [inp])
      outQ := t.outQ, out := t.out, msgIn := inp.msgIn } := by
  simp only [countCommand_cons, countCommand_nil, Nat.add_zero] at hgoes_on ⊢
  rcases stepInput_next h with ⟨hsel, _⟩ | ⟨e, hsel, rfl⟩ | ⟨i, hsel, he⟩
  · rw [hsel] at hundisturbing; cases hundisturbing
  · simp only [hsel]
    exact ⟨(illegalCommand_silent _).1, rfl⟩
  · simp only [hsel, Selected.command.injEq] at hundisturbing hgoes_on ⊢
    refine ⟨he.wire_cases.resolve_right ?_, he.receive_frame hrole hundisturbing ?_⟩
    · rintro ⟨_, ⟨htransmit, _⟩, _⟩
      rw [hrole] at htransmit; cases htransmit
    · rintro rfl
      exact Nat.ne_of_lt hgoes_on

theorem State.Inv.stepInput_completes {s : State} (h : s.Inv) (inp : PortInput) :
    ∃ t, stepInput inp s = .next t ∧ t.Inv := by
  have hpresented : (s.present inp).Inv := h
  obtain ⟨t, ht⟩ := hpresented.step_completes
  exact ⟨t, ht, everyStepKeepsTheInvariant _ _ hpresented ht⟩

section
variable {x : Payload} {b : Byte} {bs : List Byte} {u t : State} {inp : PortInput}

theorem ReceivingFrame.ne_nil (h : ReceivingFrame x bs u) : bs ≠ [] := by
  rintro rfl
  cases h.last

/-- A command between two bytes leaves what is still to come. -/
theorem ReceivingFrame.takes_command (h : ReceivingFrame x bs u) (hundisturbing : (selectInput inp).undisturbing = true)
    (hgoes_on : u.phaseCnt + countCommand .tick [inp] < u.cfg.phaseTicks) :
    ∃ t, stepInput inp u = .next t ∧ ReceivingFrame x bs t ∧ t.out.wireOut = [] ∧ t.cfg = u.cfg ∧
      t.phaseCnt = u.phaseCnt + countCommand .tick [inp] ∧ t.inQ = u.inQ.drop (countCommand .deqIn [inp]) := by
  obtain ⟨hinv, hrole, hlast, hbefore⟩ := h
  obtain ⟨t, ht, hinv'⟩ := hinv.stepInput_completes inp
  obtain ⟨hwire, hframe⟩ := stepInput_receive_frame ht hrole hundisturbing hgoes_on
  have hsame : t.reassembler = u.reassembler := by rw [hframe]; rfl
  refine ⟨t, ht, ⟨hinv', ?_, ?_, ?_⟩, hwire, ?_, ?_, ?_⟩
  · rw [hframe]; exact hrole
  · rw [feedBlock_congr hsame, hlast]
  · rw [feedBlock_congr hsame, hbefore]
  all_goals rw [hframe]

/-- The receiver as it gives a byte to `feed_byte` (41_reassembler.md R120). -/
def State.hearing (b : Byte) (s : State) : State :=
  { s with msgIn := (rxInput b).msgIn, occ := true, out := .quiet }

theorem feedBlock_hearing (b : Byte) (bs : List Byte) (s : State) :
    (feedBlock bs (s.hearing b)).1 = (feedBlock bs s).1 :=
  feedBlock_congr (s := s) (t := s.hearing b) rfl bs

theorem stepInput_rxInput_of_receive (hrole : u.role = .receive) (b : Byte) :
    stepInput (rxInput b) u = .next (handOff (feedByte b (u.hearing b))) :=
  (stepInput_rxInput b u).trans (Effect.feed (s := { u with msgIn := (rxInput b).msgIn }) b hrole).exec_next

/-- A byte before the last completes nothing, and the others are still to come. -/
theorem ReceivingFrame.takes_byte (h : ReceivingFrame x (b :: bs) u) (hmore : bs ≠ []) :
    ∃ t, stepInput (rxInput b) u = .next t ∧ ReceivingFrame x bs t ∧ t.out.wireOut = [] ∧ t.cfg = u.cfg ∧
      t.phaseCnt = u.phaseCnt ∧ t.inQ = u.inQ := by
  obtain ⟨hinv, hrole, hlast, hbefore⟩ := h
  rw [← feedBlock_hearing b, feedBlock_cons] at hlast
  rw [← feedBlock_hearing b, List.dropLast_cons_of_ne_nil hmore, feedBlock_cons] at hbefore
  obtain ⟨hsilent, hbefore'⟩ := List.append_eq_nil_iff.1 hbefore
  rw [hsilent] at hlast
  have hstep : stepInput (rxInput b) u = .next (feedByte b (u.hearing b)).2 :=
    (stepInput_rxInput b u).trans
      (exec_rxByte_of_incomplete hrole (Prod.ext (reportable_eq_nil_iff.1 hsilent) rfl))
  obtain ⟨t, ht, hinv'⟩ := hinv.stepInput_completes (rxInput b)
  obtain rfl : _ = t := Host.Outcome.next.inj (hstep.symm.trans ht)
  refine ⟨_, hstep, ⟨hinv', (feedByte_role _ _).trans hrole, hlast, hbefore'⟩, ?_, feedByte_cfg _ _,
    feedByte_phaseCnt _ _, feedByte_inQ _ _⟩
  rw [feedByte_out]
  rfl

/-- The last byte hands the message over (41_reassembler.md R121). -/
theorem ReceivingFrame.takes_last_byte (h : ReceivingFrame x [b] u) (hroom : u.inQ.length ≠ u.cfg.queueCap) :
    ∃ t, stepInput (rxInput b) u = .next t ∧ t.out = .quiet ∧ t.inQ = u.inQ ++ [.payload x] ∧ t.role = .receive := by
  have hlast := h.last
  rw [← feedBlock_hearing b, feedBlock_cons] at hlast
  have hready := reportable_eq_singleton_frameReady_iff.1 ((List.append_nil _).symm.trans hlast)
  refine ⟨_, stepInput_rxInput_of_receive h.role b, ?_, ?_, ?_⟩
  · rw [handOff_eq, feedByte_inQ, feedByte_cfg, feedByte_out]
    exact if_neg fun ⟨_, hfull⟩ => hroom hfull
  · rw [handOff_eq, feedByte_inQ, feedByte_cfg, hready]
    exact if_neg hroom
  · rw [handOff_role, feedByte_role]
    exact h.role

end

/-! ### The steps of the pair between A's tick and the last byte -/

theorem countCommand_append (i : Instr) (is js : List PortInput) :
    countCommand i (is ++ js) = countCommand i is + countCommand i js :=
  List.countP_append

theorem nodeInputs_cons (n : NodeId) (c : PairCmd) (cs : List PairCmd) :
    nodeInputs n (c :: cs) = nodeInputs n [c] ++ nodeInputs n cs := by
  cases c with
  | deliver m => rfl
  | node m inp =>
    simp only [nodeInputs]
    split <;> rfl

theorem count_cons_eq_add (c d : PairCmd) (cs : List PairCmd) : (c :: cs).count d = [c].count d + cs.count d :=
  List.count_append (l₁ := [c])

/-- A step of the pair that delivers a byte to B, or in which B takes a command that brings no byte and makes no
transition. -/
abbrev PairCmd.feedsB (c : PairCmd) : Prop :=
  c = .deliver .b ∨ ∃ inp, c = .node .b inp ∧ (selectInput inp).undisturbing = true

/-- What steps of the pair between the bytes of a frame to B change from `p` to `q`: the bytes delivered are off the
wire, and B has counted its ticks and handed over an item at each `DEQ_IN`. -/
structure Carried (p : Pair) (cs : List PairCmd) (q : Pair) : Prop where
  a : q.a = p.a
  toA : q.toA = p.toA
  toB : q.toB = p.toB.drop (cs.count (.deliver .b))
  cfg : q.b.cfg = p.b.cfg
  phase : q.b.phaseCnt = p.b.phaseCnt + countCommand .tick (nodeInputs .b cs)
  inQ : q.b.inQ = p.b.inQ.drop (countCommand .deqIn (nodeInputs .b cs))

section
variable {p q r : Pair} {x : Payload} {c : PairCmd} {cs : List PairCmd}

theorem Carried.nil (p : Pair) : Carried p [] p :=
  ⟨rfl, rfl, rfl, rfl, rfl, rfl⟩

theorem Carried.cons (h : Carried p [c] q) (hs : Carried q cs r) : Carried p (c :: cs) r where
  a := hs.a.trans h.a
  toA := hs.toA.trans h.toA
  toB := by rw [hs.toB, h.toB, List.drop_drop, count_cons_eq_add c _ cs]
  cfg := hs.cfg.trans h.cfg
  phase := by rw [hs.phase, h.phase, nodeInputs_cons .b c cs, countCommand_append, Nat.add_assoc]
  inQ := by rw [hs.inQ, h.inQ, List.drop_drop, nodeInputs_cons .b c cs, countCommand_append]

/-- One such step, while at least one byte is left on the wire after it. -/
theorem ReceivingFrame.pair_step (h : ReceivingFrame x p.toB p.b) (hc : c.feedsB)
    (hmore : [c].count (.deliver .b) < p.toB.length)
    (hgoes_on : p.b.phaseCnt + countCommand .tick (nodeInputs .b [c]) < p.b.cfg.phaseTicks) :
    ∃ q, pairStep c p = .next q ∧ Carried p [c] q ∧ ReceivingFrame x q.toB q.b := by
  rcases hc with rfl | ⟨inp, rfl, hundisturbing⟩
  · obtain ⟨b, bs, hway⟩ := List.exists_cons_of_ne_nil h.ne_nil
    rw [hway] at h hmore
    have hne : bs ≠ [] := by
      rintro rfl
      simp at hmore
    obtain ⟨t, ht, hnext, hwire, hcfg, hphase, hinQ⟩ := h.takes_byte hne
    refine ⟨_, (pairStep_deliverB_iff hway).2 ⟨t, ht, rfl⟩, ⟨rfl, ?_, ?_, hcfg, hphase, hinQ⟩, hnext⟩
    · simp [hwire]
    · simp [hway]
  · rw [nodeInputs_node_self, nodeInputs_nil] at hgoes_on
    obtain ⟨t, ht, hnext, hwire, hcfg, hphase, hinQ⟩ := h.takes_command hundisturbing hgoes_on
    refine ⟨_, pairStep_nodeB_iff.2 ⟨t, ht, rfl⟩, ⟨rfl, ?_, rfl, hcfg, ?_, ?_⟩, hnext⟩
    · simp [hwire]
    · rw [nodeInputs_node_self]; exact hphase
    · rw [nodeInputs_node_self]; exact hinQ

/-- A run of such steps, by induction over them. -/
theorem ReceivingFrame.pair_run (h : ReceivingFrame x p.toB p.b) (hcs : ∀ c ∈ cs, c.feedsB)
    (hmore : cs.count (.deliver .b) < p.toB.length)
    (hgoes_on : p.b.phaseCnt + countCommand .tick (nodeInputs .b cs) < p.b.cfg.phaseTicks) :
    ∃ r, pairRun cs p = .next r ∧ Carried p cs r ∧ ReceivingFrame x r.toB r.b := by
  induction cs generalizing p with
  | nil => exact ⟨p, rfl, .nil p, h⟩
  | cons c cs ih =>
    obtain ⟨hc, hcs⟩ := List.forall_mem_cons.1 hcs
    rw [count_cons_eq_add] at hmore
    rw [nodeInputs_cons, countCommand_append] at hgoes_on
    obtain ⟨q, hstep, hcarried, hq⟩ := h.pair_step hc (by omega) (by omega)
    obtain ⟨r, hrun, hcarried', hr⟩ := ih hq hcs
      (by rw [hcarried.toB, List.length_drop]; omega) (by rw [hcarried.phase, hcarried.cfg]; omega)
    exact ⟨r, (pairRun_cons_next hstep cs).trans hrun, hcarried.cons hcarried', hr⟩

end

theorem Config.maxPayload_eq_of_agree {c d : Config} (h : c.agree d = true) : c.maxPayload = d.maxPayload := by
  simp only [Config.agree, Bool.and_eq_true, decide_eq_true_eq] at h
  obtain ⟨⟨⟨hmax, _⟩, _⟩, _⟩ := h
  exact hmax

/-- Settles O56: A sends, the run up to the last byte keeps `ReceivingFrame`, and the last byte hands the message
over. -/
theorem messageCrossesTheWire : Obligations.MessageCrossesTheWire := by
  intro p x q cs hinvA hinvB hagree _ hgate hsense hphase hq htoB hrole hstart hroom hcs hcount hgoes_on
  obtain ⟨a, hsend, houtA, houtQ, _⟩ := hinvA.sends hgate hq hsense hphase
  have hway : p.toB ++ a.out.wireOut = encodeFrame x := by rw [htoB, houtA]; rfl
  have hsent := pairStep_nodeA_iff.2 ⟨a, hsend, rfl⟩
  rw [hway] at hsent
  have hfits : x.length ≤ p.b.cfg.maxPayload := by
    obtain ⟨_, _, _, _, _, ⟨_, _, hpayload, _⟩, _⟩ := hinvA
    rw [← Config.maxPayload_eq_of_agree hagree]
    exact hpayload x (by rw [hq]; exact List.mem_cons_self)
  have hbegins := receivingFrame_encodeFrame hinvB hrole hstart hfits
  obtain ⟨r, hrun, hcarried, hreceiving⟩ := ReceivingFrame.pair_run
    (p := { a := a, b := p.b, toA := p.toA, toB := encodeFrame x }) hbegins hcs
    (by rw [hcount, encodeFrame_length]; exact Nat.lt_succ_self _) hgoes_on
  have hleft : r.toB.length = 1 := by
    rw [hcarried.toB, List.length_drop, hcount, encodeFrame_length]
    omega
  obtain ⟨b, hb⟩ := List.length_eq_one_iff.1 hleft
  rw [hb] at hreceiving
  have hroom' : r.b.inQ.length ≠ r.b.cfg.queueCap := by
    rw [hcarried.inQ, hcarried.cfg, List.length_drop]
    dsimp only
    omega
  obtain ⟨t, ht, houtB, hinQ, hroleB⟩ := hreceiving.takes_last_byte hroom'
  have hlast := (pairStep_deliverB_iff hb).2 ⟨t, ht, rfl⟩
  have hall := pairRun_append _ [.deliver .b] ((pairRun_cons_next hsent cs).trans hrun)
  refine ⟨_, hall.trans (pairRun_cons_next hlast []), ?_, ?_, rfl, ?_, ?_, houtB, hroleB⟩
  · rw [hcarried.a, houtA]
  · rw [hcarried.a, houtQ]
  · rw [hcarried.toA, houtB]
    exact List.append_nil _
  · rw [hinQ, hcarried.inQ]

end Sys2Proof.Machine
